-- ==== Sys2Proof/Word.lean ====
section
/-! DEFINITION. The engine's plain value types (00_scope.md R6, R8, R9; 10_state.md R20). -/

namespace Sys2Proof

/-- "Byte: an 8-bit unsigned value" (00_scope.md R8): an element of GF(2^8). -/
abbrev Byte := BitVec 8

/-- A 32-bit value: a register, a command word, a State column or a unit of the key schedule (R9). -/
abbrev Word := BitVec 32

/-- 16 bytes: the State, a block, the key (10_state.md R33, R34). -/
abbrev Block := Vector Byte 16

/-- A 256-entry substitution table (10_state.md R36). -/
abbrev Table := Vector Byte 256

/-- The 11-entry table of round constants (10_state.md R37). -/
abbrev RconTable := Vector Word 11

/-- The KeySchedule: exactly `4*(Nr+1)` = 44 words (10_state.md R35). -/
abbrev Schedule := Vector Word 44

end Sys2Proof
end

