-- ==== Sys2Proof/Config.lean ====
section
/-! DEFINITION. The constants the source fixes (00_scope.md R6), the capacity parameter (R7) and the free values. -/

namespace Sys2Proof

/-- `RED`: "byte XORed in on carry out of bit 7 during `multiply`" (R6). -/
def Config.red : Byte := 0x1B#8

/-- `INV_EXP`: `inverse(a) = a^254` (R6). -/
def Config.invExp : Nat := 254

/-- `AFF_ROW`: the affine pattern row (R6). -/
def Config.affRow : Byte := 0xF1#8

/-- `AFF_CONST`: "constant XORed after the affine matrix" (R6). -/
def Config.affConst : Byte := 0x63#8

/-- `key length` in bytes, as `KLEN` is compared with it (R6, 10_state.md R29). -/
def Config.keyLength : Word := 16#32

/-- `Nr`: number of rounds (R6), the largest legal round operand (30_encoding.md R92). -/
def Config.nr : Nat := 10

/-- The range of `DCAP` (R7): "natural, multiple of 16, at least 16, at most 0xFFFFFFF0". -/
def Config.dcapLegal (dcap : Nat) : Bool :=
  dcap % 16 == 0 && decide (16 ≤ dcap) && decide (dcap ≤ 0xFFFFFFF0)

/-- R7's "suggested default 4096". DESIGN CHOICE, unsafe only if a statement rests on it: log 1. -/
def Config.dcapDefault : Nat := 4096

/-- FREE VALUE: what byte `off` of CT holds after reset number `n`, until the host writes it
(93_implementation_defined.md U1, treatment `any value`). Safe: nothing constrains it. Log 2. -/
opaque Config.ctAtReset : Nat → Nat → Byte

/-- FREE VALUE: what byte `off` of PT holds after reset number `n`, until ECBDEC writes it
(93_implementation_defined.md U2). Safe: nothing constrains it. Log 3. -/
opaque Config.ptAtReset : Nat → Nat → Byte

end Sys2Proof
end

