-- ==== Sys2Proof/Syntax.lean ====
section
/-! DEFINITION. The engine's instruction set: the 13 commands of 30_encoding.md R93. -/

namespace Sys2Proof

/-- One constructor per row of spec/opcode_table.json. Only ARK has an operand, the round number
`rnd = w[11:8]` (R92); every other operand comes from named registers and buffers (R91). -/
inductive Instr where
  | gfmul               -- 0x01 R114: field multiply
  | gfinv               -- 0x02 R115: field inverse
  | sbgen               -- 0x10 R132: build the S-box tables
  | subw                -- 0x11 R136: substitute a word through SBOX
  | isubw               -- 0x12 R137: substitute a word through ISBOX
  | rcgen               -- 0x20 R152: build the RCON table
  | keyexp              -- 0x21 R155: expand the key
  | ark (rnd : BitVec 4) -- 0x30 R172: AddRoundKey
  | ishr                -- 0x31 R174: InvShiftRows
  | isubb               -- 0x32 R176: InvSubBytes
  | imixc               -- 0x33 R178: InvMixColumns
  | decblk              -- 0x34 R180: decrypt one block
  | ecbdec              -- 0x40 R203: decrypt CT into PT
  deriving DecidableEq, Repr

/-- The one pseudo-command: "`TBLGEN` expands to the two commands `SBGEN` then `RCGEN`" (R98). -/
def Instr.tblgen : List Instr := [.sbgen, .rcgen]

end Sys2Proof
end

