-- ==== Sys2Proof/WellFormed.lean ====
section
/-! DEFINITION. Which instruction terms stand for a legal command word (30_encoding.md R92, R94). -/

namespace Sys2Proof

/-- R92: "Legal values are 0 to 10 (`Nr`); 11 to 15 make the command illegal". -/
def Instr.wf : Instr → Bool
  | .gfmul => true
  | .gfinv => true
  | .sbgen => true
  | .subw => true
  | .isubw => true
  | .rcgen => true
  | .keyexp => true
  | .ark rnd => decide (rnd.toNat ≤ Config.nr)
  | .ishr => true
  | .isubb => true
  | .imixc => true
  | .decblk => true
  | .ecbdec => true

/-- The instruction has a command word. -/
abbrev Instr.WellFormed (i : Instr) : Prop := i.wf = true

end Sys2Proof
end

