-- ==== Sys2Proof/Decode.lean ====
section
/-! DEFINITION. Command decoding and encoding (30_encoding.md R90 to R97). -/

namespace Sys2Proof

/-- Why a word is illegal (R94). The engine reports all three as IllegalCommand. -/
inductive DecodeError where
  /-- "a word whose `opcode` byte is not one of the 13 values" -/
  | unknownOpcode
  /-- a format-N word with any of bits 31:8 nonzero, or an ARK word with any of bits 31:12 nonzero -/
  | nonzeroZeroField
  /-- an ARK word "with `rnd` in 11..15" -/
  | roundOutOfRange
  deriving DecidableEq, Repr

/-- The field `opcode`, bits 7:0 of both formats (R91). -/
def opcodeField (w : Word) : Byte := w.extractLsb' 0 8

/-- The field `rnd`, bits 11:8 of format R (R91, R92). -/
def rndField (w : Word) : BitVec 4 := w.extractLsb' 8 4

/-- The field `zero` of format N, bits 31:8 (R91). -/
def zeroFieldN (w : Word) : BitVec 24 := w.extractLsb' 8 24

/-- The field `zero` of format R, bits 31:12 (R91). -/
def zeroFieldR (w : Word) : BitVec 20 := w.extractLsb' 12 20

/-- The twelve opcodes of format N (R97's `case op of`). -/
def decodeFormatN (op : Nat) : Except DecodeError Instr :=
  match op with
  | 0x01 => .ok .gfmul
  | 0x02 => .ok .gfinv
  | 0x10 => .ok .sbgen
  | 0x11 => .ok .subw
  | 0x12 => .ok .isubw
  | 0x20 => .ok .rcgen
  | 0x21 => .ok .keyexp
  | 0x31 => .ok .ishr
  | 0x32 => .ok .isubb
  | 0x33 => .ok .imixc
  | 0x34 => .ok .decblk
  | 0x40 => .ok .ecbdec
  | _ => .error .unknownOpcode

/-- R97's `decode`, "a total function from a 32-bit word `w` to a command or `Illegal`", in its order of tests. -/
def decode (w : Word) : Except DecodeError Instr :=
  if opcodeField w = 0x30#8 then
    if zeroFieldR w ≠ 0#20 then .error .nonzeroZeroField
    else if Config.nr < (rndField w).toNat then .error .roundOutOfRange
    else .ok (.ark (rndField w))
  else if zeroFieldN w ≠ 0#24 then .error .nonzeroZeroField
  else decodeFormatN (opcodeField w).toNat

/-- The opcode byte of each command (R93). -/
def Instr.opcode : Instr → Byte
  | .gfmul => 0x01#8
  | .gfinv => 0x02#8
  | .sbgen => 0x10#8
  | .subw => 0x11#8
  | .isubw => 0x12#8
  | .rcgen => 0x20#8
  | .keyexp => 0x21#8
  | .ark _ => 0x30#8
  | .ishr => 0x31#8
  | .isubb => 0x32#8
  | .imixc => 0x33#8
  | .decblk => 0x34#8
  | .ecbdec => 0x40#8

/-- The bits of a command word above the opcode: format R's `rnd` for ARK, zero for format N (R91). -/
def Instr.operandBits : Instr → Word
  | .ark rnd => rnd.setWidth 32 <<< 8
  | _ => 0#32

/-- The command word of an instruction (R91, R93): for ARK, `0x00000030 | (rnd << 8)` (R172). -/
def encode (i : Instr) : Word := i.opcode.setWidth 32 ||| i.operandBits

/-- The decoder on an opcode-table row's bits, numbered as the table numbers them: bit 0 is bit 0 of the
32-bit command word (R90: "There is one length"). Bits above `nbits` are zero; more than 32 bits are no
command. Log 13. -/
def decodeTableWord (nbits w : Nat) : Option Instr :=
  if w % 2 ^ nbits < 2 ^ 32 then (decode (BitVec.ofNat 32 (w % 2 ^ nbits))).toOption else none

end Sys2Proof
end

