-- ==== Sys2Proof/Machine/State.lean ====
section
/-! DEFINITION. The engine's architectural state (10_state.md R20), the host's side of the port
(20_memory.md R60, R61), the reasons a step can stop, and reset (10_state.md R43). -/

namespace Sys2Proof.Machine

/-- The result codes of 60_exceptions.md R220, in the order of their numbers 0 to 5.
Codes 6 and 7 are never produced: "A model's `ERR` type has exactly six values" (U6). -/
inductive ResultCode where
  | ok
  | invalidKeySize
  | invalidBlockLength
  | lengthOverCapacity
  | scheduleNotValid
  | illegalCommand
  deriving DecidableEq, Repr

/-- A byte buffer (CT, PT) as (offset, byte) pairs, offsets strictly rising (`Memory.wf`).
An unlisted byte has no value here: it has not been written since reset. Log 2, log 3. -/
abbrev Memory := List Host.Cell

/-- The engine's architectural state: "A model's state record has exactly these fields" (10_state.md R20). -/
structure Engine where
  /-- operand A (R21) -/
  opa : Word
  /-- operand B (R22) -/
  opb : Word
  /-- result of GFMUL, GFINV, SUBW, ISUBW (R23) -/
  res : Word
  /-- S-box tables valid (R25) -/
  sv : Bool
  /-- RCON valid (R25) -/
  rv : Bool
  /-- key schedule valid (R25) -/
  kv : Bool
  /-- result code of the most recent command (R28) -/
  err : ResultCode
  /-- declared key length in bytes (R29) -/
  klen : Word
  /-- declared ciphertext length in bytes (R30) -/
  clen : Word
  /-- length in bytes of the plaintext held in PT (R31) -/
  plen : Word
  /-- the cipher key (R33) -/
  key : Block
  /-- the State (R34) -/
  st : Block
  /-- the KeySchedule (R35) -/
  ks : Schedule
  /-- forward substitution table (R36) -/
  sbox : Table
  /-- inverse substitution table, the source's INV_SBOX (R36) -/
  isbox : Table
  /-- round constants (R37) -/
  rcon : RconTable
  /-- ciphertext input buffer (R38) -/
  ct : Memory
  /-- plaintext output buffer (R39) -/
  pt : Memory
  deriving DecidableEq, Repr

/-- The nine regions of 20_memory.md R60, in the order of their ids 0 to 8. -/
inductive Region where
  | reg | key | st | ct | pt | sbox | isbox | rcon | ks
  deriving DecidableEq, Repr

/-- A transaction's access size `n` in {1, 4} bytes (R61). -/
inductive Width where
  | byte
  | word
  deriving DecidableEq, Repr

/-- A transaction's value, "of `8n` bits" (R61). -/
inductive Value where
  | byte (v : Byte)
  | word (v : Word)
  deriving DecidableEq, Repr

/-- A host transaction (R61): the region id and the offset are any naturals, since an ill-formed
transaction is answered too (R64). A write's size is that of its value. -/
inductive Transaction where
  | read (region off : Nat) (n : Width)
  | write (region off : Nat) (v : Value)
  deriving DecidableEq, Repr

/-- What reaches the engine from outside: a transaction (R61), or a reset, which "may arrive at any time
between two transactions" (70_reset_and_hazards.md R250). -/
inductive HostEvent where
  | transaction (t : Transaction)
  | reset
  deriving DecidableEq, Repr

/-- The outcome of a transaction that the region map allows (R61): `OK(value)` for a read, `OK` for a write. -/
inductive Reply where
  | value (v : Value)
  | done
  deriving DecidableEq, Repr

/-- Why a transaction is a HostError (20_memory.md R64). The hardware has one HostError; the four names
are the model's. Log 6. -/
inductive HostErrorReason where
  /-- "the region id is not in 0..8" -/
  | noSuchRegion
  /-- "`off + n` exceeds the region size" -/
  | beyondRegion
  /-- "the width or alignment rule R63 is broken" -/
  | widthOrAlignment
  /-- "it is a write to a location the host may not write" -/
  | readOnly
  deriving DecidableEq, Repr

/-- What ends a run. -/
inductive Fault where
  /-- Raised by `step` when the next transaction is a HostError: "A model should treat a host program that
  draws a HostError as faulted" (R64). Safe: the hardware answers HostError and goes on unchanged. Log 6. -/
  | hostError (reason : HostErrorReason)
  deriving DecidableEq, Repr

/-- What has no meaning. -/
inductive Refusal where
  /-- An instruction whose arm in `exec` has no meaning yet. No arm is left so. Safe: the model stops. -/
  | notModelled (mnemonic : String)
  deriving DecidableEq, Repr

/-- The machine: the engine, its instance parameter, and the host's side of the port. -/
structure State where
  /-- the engine's architectural state (R20) -/
  engine : Engine
  /-- `DCAP` (00_scope.md R7), fixed for the instance: no step changes it. Log 1. -/
  dcap : Nat
  /-- MODEL'S OWN: how many resets have happened; selects the free contents of CT and PT. Log 2. -/
  resets : Nat
  /-- MODEL'S OWN: the host's events not yet served, oldest first (R24, R69). Log 5. -/
  pending : List HostEvent
  /-- MODEL'S OWN: the outcome of the latest served transaction (R61). Log 7. -/
  reply : Option Reply
  deriving DecidableEq, Repr

/-- 10_state.md R43. KS, SBOX, ISBOX and RCON are "unspecified, and unobservable until written": zero here,
as U2 allows "without loss" (DESIGN CHOICE, log 4). CT and PT list nothing (log 2, log 3). -/
def Engine.reset : Engine where
  opa := 0#32
  opb := 0#32
  res := 0#32
  sv := false
  rv := false
  kv := false
  err := .ok
  klen := 0#32
  clen := 0#32
  plen := 0#32
  key := Vector.replicate 16 0#8
  st := Vector.replicate 16 0#8
  ks := Vector.replicate 44 0#32
  sbox := Vector.replicate 256 0#8
  isbox := Vector.replicate 256 0#8
  rcon := Vector.replicate 11 0#32
  ct := []
  pt := []

/-- The machine right after reset: R43's state, no host event waiting, nothing answered.
`DCAP` is R7's suggested default (log 1). -/
def State.reset : State where
  engine := Engine.reset
  dcap := Config.dcapDefault
  resets := 0
  pending := []
  reply := none

end Sys2Proof.Machine
end

