-- ==== Sys2Proof/Machine/Ops.lean ====
section
/-! DEFINITION. The named operations over the engine's storage, and how a command ends:
success, or failure with a result code (60_exceptions.md R229). -/

namespace Sys2Proof.Machine

/-- The byte listed at an address, if any. -/
def Memory.read : Memory → Nat → Option Byte
  | [], _ => none
  | (b, v) :: m, a => if a = b then some v else Memory.read m a

/-- Write one byte, keeping addresses strictly rising. -/
def Memory.write : Memory → Nat → Byte → Memory
  | [], a, v => [(a, v)]
  | (b, w) :: m, a, v =>
    if a < b then (a, v) :: (b, w) :: m
    else if a = b then (a, v) :: m
    else (b, w) :: Memory.write m a v

/-- The canonical form: addresses strictly rising. An unlisted byte has no value, so no entry can equal it. -/
def Memory.wf : Memory → Bool
  | [] => true
  | [_] => true
  | c :: d :: m => decide (c.1 < d.1) && Memory.wf (d :: m)

/-- Every listed address is below `n`. -/
def Memory.below (m : Memory) (n : Nat) : Bool := m.all fun c => decide (c.1 < n)

/-- The byte of CT at an offset: what was last written there, else the free contents it had at reset (U1). -/
def State.ctByte (s : State) (off : Nat) : Byte :=
  (s.engine.ct.read off).getD (Config.ctAtReset s.resets off)

/-- The byte of PT stored at an offset, behind the PLEN gate: what ECBDEC last wrote there, else its free
contents at reset (U2). -/
def State.ptByte (s : State) (off : Nat) : Byte :=
  (s.engine.pt.read off).getD (Config.ptAtReset s.resets off)

/-- Store one byte of CT. -/
def State.setCtByte (s : State) (off : Nat) (v : Byte) : State :=
  { s with engine.ct := s.engine.ct.write off v }

/-- Store one byte of PT. -/
def State.setPtByte (s : State) (off : Nat) (v : Byte) : State :=
  { s with engine.pt := s.engine.pt.write off v }

/-- `RES <- v` (10_state.md R23). -/
def State.setRes (s : State) (v : Word) : State := { s with engine.res := v }

/-- `ST <- v` (10_state.md R34). -/
def State.setSt (s : State) (v : Block) : State := { s with engine.st := v }

/-- `KS <- v`, "all 44 words at once" (10_state.md R35). -/
def State.setKs (s : State) (v : Schedule) : State := { s with engine.ks := v }

/-- `SBOX`, `ISBOX` <- the two tables (10_state.md R36). -/
def State.setTables (s : State) (t : Table × Table) : State :=
  { s with engine.sbox := t.1, engine.isbox := t.2 }

/-- `RCON <- v` (10_state.md R37). -/
def State.setRcon (s : State) (v : RconTable) : State := { s with engine.rcon := v }

/-- `PLEN <- v` (10_state.md R31). -/
def State.setPlen (s : State) (v : Word) : State := { s with engine.plen := v }

/-- The end of a command that succeeds: `ERR <- 0` (00_scope.md R11, 10_state.md R28). -/
def State.succeed (s : State) : State := { s with engine.err := .ok }

/-- Taking a failure, `fail <Code>`: "A command that fails writes its code to `ERR` and changes nothing else.
It saves nothing, switches no mode, masks nothing, uses no stack and goes nowhere" (60_exceptions.md R229).
There is no return and nothing to restore (R230). -/
def State.fail (s : State) (code : ResultCode) : State := { s with engine.err := code }

/-- A reset event (70_reset_and_hazards.md R250): the engine as at reset, with fresh free contents of CT and
PT; the transactions that wait go on waiting, and none has been answered since. Log 8. -/
def State.afterReset (s : State) : State :=
  { s with engine := Engine.reset, resets := s.resets + 1, reply := none }

end Sys2Proof.Machine
end

