-- ==== Sys2Proof/Machine/Flags.lean ====
section
/-! DEFINITION. The three valid flags, the views STATUS and ERR of the register region, and the read gates
(10_state.md R25, R27, R28; 20_memory.md R65). -/

namespace Sys2Proof.Machine

/-- `SV <- 1` (R25). -/
def State.setSv (s : State) : State := { s with engine.sv := true }

/-- `RV <- 1` (R25). -/
def State.setRv (s : State) : State := { s with engine.rv := true }

/-- `KV <- 1` (R25). -/
def State.setKv (s : State) : State := { s with engine.kv := true }

/-- `STATUS`: bit 0 = SV, bit 1 = RV, bit 2 = KV, bits 31:3 zero (R27): `zext_32(KV:RV:SV)` (20_memory.md R65). -/
def statusWord (e : Engine) : Word :=
  (BitVec.ofBool e.kv ++ BitVec.ofBool e.rv ++ BitVec.ofBool e.sv).setWidth 32

/-- The number of a result code (60_exceptions.md R220). -/
def ResultCode.number : ResultCode → BitVec 3
  | .ok => 0#3
  | .invalidKeySize => 1#3
  | .invalidBlockLength => 2#3
  | .lengthOverCapacity => 3#3
  | .scheduleNotValid => 4#3
  | .illegalCommand => 5#3

/-- `ERR` as read: the code in bits 2:0, bits 31:3 zero (R28). -/
def errWord (e : Engine) : Word := e.err.number.setWidth 32

/-- A gated byte: zero while the gate is shut (20_memory.md R65 (b)). -/
def gatedByte (gate : Bool) (v : Byte) : Byte := if gate then v else 0#8

/-- A gated word: zero while the gate is shut (20_memory.md R65 (b)). -/
def gatedWord (gate : Bool) (v : Word) : Word := if gate then v else 0#32

end Sys2Proof.Machine
end

