-- ==== Sys2Proof/Machine/Operands.lean ====
section
/-! DEFINITION. Bit fields, byte order and where a command's operands come from
(00_scope.md R8 to R10; 20_memory.md R62; 30_encoding.md R92). -/

namespace Sys2Proof.Machine

/-- `zext_32` of a byte (R8). -/
def zext32 (b : Byte) : Word := b.setWidth 32

/-- A register's bits 7:0: the byte operand of GFMUL and GFINV; bits 31:8 are ignored (10_state.md R21, R22). -/
def lowByte (w : Word) : Byte := w.extractLsb' 0 8

/-- `word(b0, b1, b2, b3) = (b0 << 24) | (b1 << 16) | (b2 << 8) | b3` (R9). -/
def word (b0 b1 b2 b3 : Byte) : Word :=
  (zext32 b0 <<< 24) ||| (zext32 b1 <<< 16) ||| (zext32 b2 <<< 8) ||| zext32 b3

/-- `byte_k(w) = w[31-8k : 24-8k]` for `k` in 0..3 (R9). -/
def byteOf (k : Nat) (w : Word) : Byte := w.extractLsb' (24 - 8 * k) 8

/-- `rotl8(x, i) = ((x << i) | (x >> (8 - i)))[7:0]` for `0 <= i <= 7` (R8). -/
def rotl8 (x : Byte) (i : Nat) : Byte := (x <<< i) ||| (x >>> (8 - i))

/-- `popcount(v)`, the number of 1 bits (R8). -/
def popcount (v : Byte) : Nat := (List.range 8).foldl (fun n i => n + (v.getLsbD i).toNat) 0

/-- `parity(v) = popcount(v)[0]` (R8). -/
def parity (v : Byte) : Bool := (popcount v).testBit 0

/-- `rotw(w) = ((w << 8) | (w >> 24))[31:0]`, the source's `rotate_left_8` (R9, 43_key_schedule.md R150). -/
def rotw (w : Word) : Word := (w <<< 8) ||| (w >>> 24)

/-- `SBOX[b]` or `ISBOX[b]`. -/
def lookup (t : Table) (b : Byte) : Byte := t[b.toNat]'b.isLt

/-- Four bytes of a block from byte `4*i` on as a big-endian word: a key word (R62 (b)) or State column `i`
(R10, R62 (e)). -/
def blockWord (b : Block) (i : Fin 4) : Word :=
  word b[4 * i.val] b[4 * i.val + 1] b[4 * i.val + 2] b[4 * i.val + 3]

/-- Block `k` of the ciphertext: `CT[16k], ..., CT[16k+15]` (45_ecb_driver.md R201). -/
def State.ctBlock (s : State) (k : Nat) : Block := Vector.ofFn fun j : Fin 16 => s.ctByte (16 * k + j.val)

/-- Store a block at `PT[16k], ..., PT[16k+15]` (45_ecb_driver.md R202). -/
def State.setPtBlock (s : State) (k : Nat) (b : Block) : State :=
  (List.finRange 16).foldl (fun s j => s.setPtByte (16 * k + j.val) b[j]) s

end Sys2Proof.Machine
end

