-- ==== Sys2Proof/Machine/GfEngine.lean ====
section
/-! DEFINITION. Component 1, the Galois field engine: GFMUL, GFINV (41_gf_engine.md). -/

namespace Sys2Proof.Machine

/-- `n` more iterations of R111's loop, from the values of `a`, `b` and the accumulator. -/
def multiplyLoop : Nat → Byte → Byte → Byte → Byte
  | 0, _, _, acc => acc
  | n + 1, a, b, acc =>
    let acc' := if b[0] then acc ^^^ a else acc
    let a' := if a[7] then (a <<< 1) ^^^ Config.red else a <<< 1
    multiplyLoop n a' (b >>> 1) acc'

/-- `multiply(a, b)` (R111): "All eight iterations always run". -/
def multiply (a b : Byte) : Byte := multiplyLoop 8 a b 0#8

/-- `n` more rounds of R113's loop `r <- multiply(r, a)`. -/
def powerLoop (a : Byte) : Nat → Byte → Byte
  | 0, r => r
  | n + 1, r => powerLoop a n (multiply r a)

/-- `inverse(a) = a^254` (R113). -/
def inverse (a : Byte) : Byte := powerLoop a Config.invExp 1#8

/-- GFMUL (R114). -/
def execGfmul (s : State) : Host.Outcome State Fault Refusal :=
  .next (s.setRes (zext32 (multiply (lowByte s.engine.opa) (lowByte s.engine.opb)))).succeed

/-- GFINV (R115). -/
def execGfinv (s : State) : Host.Outcome State Fault Refusal :=
  .next (s.setRes (zext32 (inverse (lowByte s.engine.opa)))).succeed

end Sys2Proof.Machine
end

