-- ==== Sys2Proof/Machine/SboxGenerator.lean ====
section
/-! DEFINITION. Component 2, the S-box generator: SBGEN, SUBW, ISUBW (42_sbox_generator.md). -/

namespace Sys2Proof.Machine

/-- `affine(x)` (R130): bit `i` of the accumulator is `parity(x & rotl8(0xF1, i))`; then XOR 0x63. -/
def affine (x : Byte) : Byte :=
  (List.range 8).foldl
    (fun acc i => if parity (x &&& rotl8 Config.affRow i) then acc ||| (1#8 <<< i) else acc) 0#8
    ^^^ Config.affConst

/-- One pass of R131's loop: `s <- affine(inverse(a)); SBOX[a] <- s; ISBOX[s] <- a`. -/
def sboxStep (t : Table × Table) (a : Fin 256) : Table × Table :=
  let s := affine (inverse (BitVec.ofFin a))
  (t.1.set a.val s, t.2.set s.toNat (BitVec.ofFin a) s.isLt)

/-- `build_sbox_tables()` (R131), written over whatever the two arrays held. -/
def buildSboxTables (t : Table × Table) : Table × Table := (List.finRange 256).foldl sboxStep t

/-- Run the build on the engine's arrays. -/
def State.buildSbox (s : State) : State := s.setTables (buildSboxTables (s.engine.sbox, s.engine.isbox))

/-- `ensure_sbox()`, the lazy build (R133). -/
def State.ensureSbox (s : State) : State := if s.engine.sv then s else s.buildSbox.setSv

/-- `subword(w)` with the table given (R134); `inv_subword(w)` is the same with ISBOX (R135). -/
def subword (t : Table) (w : Word) : Word :=
  word (lookup t (byteOf 0 w)) (lookup t (byteOf 1 w)) (lookup t (byteOf 2 w)) (lookup t (byteOf 3 w))

/-- SBGEN (R132). -/
def execSbgen (s : State) : Host.Outcome State Fault Refusal :=
  .next s.buildSbox.setSv.succeed

/-- SUBW (R136). -/
def execSubw (s : State) : Host.Outcome State Fault Refusal :=
  let t := s.ensureSbox
  .next (t.setRes (subword t.engine.sbox t.engine.opa)).succeed

/-- ISUBW (R137). -/
def execIsubw (s : State) : Host.Outcome State Fault Refusal :=
  let t := s.ensureSbox
  .next (t.setRes (subword t.engine.isbox t.engine.opa)).succeed

end Sys2Proof.Machine
end

