-- ==== Sys2Proof/Machine/KeySchedule.lean ====
section
/-! DEFINITION. Component 3, the key schedule: RCGEN, KEYEXP (43_key_schedule.md). -/

namespace Sys2Proof.Machine

/-- One pass of R151's loop for `r = i + 1`: `RCON[r] <- word(v, 0, 0, 0); v <- multiply(v, 0x02)`. -/
def rconStep (t : RconTable × Byte) (i : Fin 10) : RconTable × Byte :=
  (t.1.set (i.val + 1) (word t.2 0#8 0#8 0#8), multiply t.2 0x02#8)

/-- `build_rcon()` (R151), written over whatever the array held: `RCON[0] <- 0`, `v <- 1`, then `r` in 1..11. -/
def buildRcon (t : RconTable) : RconTable := ((List.finRange 10).foldl rconStep (t.set 0 0#32, 0x01#8)).1

/-- Run the build on the engine's array. -/
def State.buildRcon (s : State) : State := s.setRcon (Machine.buildRcon s.engine.rcon)

/-- `ensure_rcon()`, the lazy build (R153). -/
def State.ensureRcon (s : State) : State := if s.engine.rv then s else s.buildRcon.setRv

/-- R154's loop body for `i = j + 4`: `temp <- w[i-1]`, changed when `i % 4 == 0`; `w[i] <- w[i-4] ^ temp`.
There is no else-branch (R156). -/
def expandStep (sbox : Table) (rcon : RconTable) (w : Schedule) (j : Fin 40) : Schedule :=
  let last := w[j.val + 3]
  let temp := if j.val % 4 = 0 then subword sbox (rotw last) ^^^ rcon[(j.val + 4) / 4] else last
  w.set (j.val + 4) (w[j.val] ^^^ temp)

/-- Words 0 to 3 of a schedule are the key in big-endian order (R154, 20_memory.md R62 (b)). -/
def keyWords (key : Block) : Schedule :=
  Vector.ofFn fun i : Fin 44 => if h : i.val < 4 then blockWord key ⟨i.val, h⟩ else 0#32

/-- `expand_key(key)` (R154), with the tables it reads. -/
def expandKey (sbox : Table) (rcon : RconTable) (key : Block) : Schedule :=
  (List.finRange 40).foldl (expandStep sbox rcon) (keyWords key)

/-- The table builds and the expansion that KEYEXP and ECBDEC share once validation has passed
(R155, 45_ecb_driver.md R203). -/
def State.expandSchedule (s : State) : State :=
  let t := s.ensureSbox.ensureRcon
  (t.setKs (expandKey t.engine.sbox t.engine.rcon t.engine.key)).setKv

/-- RCGEN (R152). -/
def execRcgen (s : State) : Host.Outcome State Fault Refusal :=
  .next s.buildRcon.setRv.succeed

/-- KEYEXP (R155). -/
def execKeyexp (s : State) : Host.Outcome State Fault Refusal :=
  if s.engine.klen ≠ Config.keyLength then .next (s.fail .invalidKeySize)
  else .next s.expandSchedule.succeed

end Sys2Proof.Machine
end

