-- ==== Sys2Proof/Machine/InverseCipher.lean ====
section
/-! DEFINITION. Component 4, the inverse cipher: ARK, ISHR, ISUBB, IMIXC, DECBLK (44_inverse_cipher.md). -/

namespace Sys2Proof.Machine

/-- `add_round_key(st, ks, r)` (R171): `st'[4c + k] <- st[4c + k] ^ byte_k(ks[4r + c])`. -/
def addRoundKey (st : Block) (ks : Schedule) (r : Fin 11) : Block :=
  Vector.ofFn fun i : Fin 16 => st[i] ^^^ byteOf (i.val % 4) ks[4 * r.val + i.val / 4]

/-- `SRC[k] = (k % 4) + 4 * ((k / 4 - k % 4) % 4)`, the inner difference modulo 4 (R173). -/
def shiftSource (k : Fin 16) : Fin 16 := ⟨k.val % 4 + 4 * ((k.val / 4 + 4 - k.val % 4) % 4), by omega⟩

/-- `inv_shift_rows(st)` (R173): row `r` cyclically right by `r`; all 16 reads are of the old State. -/
def invShiftRows (st : Block) : Block := Vector.ofFn fun k : Fin 16 => st[shiftSource k]

/-- `inv_sub_bytes(st)` (R175): `st'[k] = ISBOX[st[k]]`. -/
def invSubBytes (isbox : Table) (st : Block) : Block := Vector.ofFn fun k : Fin 16 => lookup isbox st[k]

/-- One output byte of `inv_mix_columns`: a matrix row times the old column (R177). -/
def mixRow (m0 m1 m2 m3 a0 a1 a2 a3 : Byte) : Byte :=
  multiply m0 a0 ^^^ multiply m1 a1 ^^^ multiply m2 a2 ^^^ multiply m3 a3

/-- `inv_mix_columns(st)` (R177): matrix row `r` is `[0E, 0B, 0D, 09]` rotated right by `r`
(92_eei_decisions.md D23). Byte `i` is row `i % 4` of column `i / 4`. -/
def invMixColumns (st : Block) : Block :=
  Vector.ofFn fun i : Fin 16 =>
    let c := i.val / 4
    let a0 := st[4 * c]
    let a1 := st[4 * c + 1]
    let a2 := st[4 * c + 2]
    let a3 := st[4 * c + 3]
    if i.val % 4 = 0 then mixRow 0x0E#8 0x0B#8 0x0D#8 0x09#8 a0 a1 a2 a3
    else if i.val % 4 = 1 then mixRow 0x09#8 0x0E#8 0x0B#8 0x0D#8 a0 a1 a2 a3
    else if i.val % 4 = 2 then mixRow 0x0D#8 0x09#8 0x0E#8 0x0B#8 a0 a1 a2 a3
    else mixRow 0x0B#8 0x0D#8 0x09#8 0x0E#8 a0 a1 a2 a3

/-- A middle round (R179): InvShiftRows, InvSubBytes, AddRoundKey, InvMixColumns, "in that exact order". -/
def middleRound (isbox : Table) (ks : Schedule) (st : Block) (r : Fin 11) : Block :=
  invMixColumns (addRoundKey (invSubBytes isbox (invShiftRows st)) ks r)

/-- The rounds `Nr-1` down to 1. -/
def middleRounds : List (Fin 11) := [9, 8, 7, 6, 5, 4, 3, 2, 1]

/-- `decrypt_block(block, ks)` (R179), with the inverse table it reads. -/
def decryptBlock (isbox : Table) (ks : Schedule) (block : Block) : Block :=
  let st := middleRounds.foldl (middleRound isbox ks) (addRoundKey block ks 10)
  addRoundKey (invSubBytes isbox (invShiftRows st)) ks 0

/-- ARK rnd (R172). A round above 10 has no word; as a term it is IllegalCommand, "decided by the decoder,
before anything else" (R172, R94). DEDUCED, safe: log 9. -/
def execArk (rnd : BitVec 4) (s : State) : Host.Outcome State Fault Refusal :=
  if h : rnd.toNat ≤ 10 then
    if s.engine.kv then .next (s.setSt (addRoundKey s.engine.st s.engine.ks ⟨rnd.toNat, by omega⟩)).succeed
    else .next (s.fail .scheduleNotValid)
  else .next (s.fail .illegalCommand)

/-- ISHR (R174). -/
def execIshr (s : State) : Host.Outcome State Fault Refusal :=
  .next (s.setSt (invShiftRows s.engine.st)).succeed

/-- ISUBB (R176). -/
def execIsubb (s : State) : Host.Outcome State Fault Refusal :=
  let t := s.ensureSbox
  .next (t.setSt (invSubBytes t.engine.isbox t.engine.st)).succeed

/-- IMIXC (R178). -/
def execImixc (s : State) : Host.Outcome State Fault Refusal :=
  .next (s.setSt (invMixColumns s.engine.st)).succeed

/-- DECBLK (R180); it builds no table (90_conflicts.md C6). -/
def execDecblk (s : State) : Host.Outcome State Fault Refusal :=
  if s.engine.kv then .next (s.setSt (decryptBlock s.engine.isbox s.engine.ks s.engine.st)).succeed
  else .next (s.fail .scheduleNotValid)

end Sys2Proof.Machine
end

