-- ==== Sys2Proof/Machine/EcbDriver.lean ====
section
/-! DEFINITION. Component 5, the ECB driver: ECBDEC (45_ecb_driver.md). -/

namespace Sys2Proof.Machine

/-- One pass of R203's block loop: partition and load `CT[16k..16k+16)` into ST, decrypt, output to PT. -/
def State.ecbBlock (s : State) (k : Nat) : State :=
  let out := decryptBlock s.engine.isbox s.engine.ks (s.ctBlock k)
  (s.setSt out).setPtBlock k out

/-- R203's block loop, `k` in 0..n in ascending order (20_memory.md R73). -/
def State.ecbBlocks (s : State) (n : Nat) : State := (List.range n).foldl State.ecbBlock s

/-- ECBDEC (R203): the three validations in priority order, then expansion, blocks, `PLEN <- CLEN`. -/
def execEcbdec (s : State) : Host.Outcome State Fault Refusal :=
  if s.engine.klen ≠ Config.keyLength then .next (s.fail .invalidKeySize)
  else if s.engine.clen.toNat % 16 ≠ 0 then .next (s.fail .invalidBlockLength)
  else if s.dcap < s.engine.clen.toNat then .next (s.fail .lengthOverCapacity)
  else .next ((s.expandSchedule.ecbBlocks (s.engine.clen.toNat / 16)).setPlen s.engine.clen).succeed

end Sys2Proof.Machine
end

