-- ==== Sys2Proof/Machine/Dispatch.lean ====
section
/-! DEFINITION. The dispatch: one arm per command of 30_encoding.md R93. -/

namespace Sys2Proof.Machine

def exec (i : Instr) (s : State) : Host.Outcome State Fault Refusal :=
  match i with
  | .gfmul => Sys2Proof.Machine.execGfmul s
  | .gfinv => Sys2Proof.Machine.execGfinv s
  | .sbgen => Sys2Proof.Machine.execSbgen s
  | .subw => Sys2Proof.Machine.execSubw s
  | .isubw => Sys2Proof.Machine.execIsubw s
  | .rcgen => Sys2Proof.Machine.execRcgen s
  | .keyexp => Sys2Proof.Machine.execKeyexp s
  | .ark rnd => Sys2Proof.Machine.execArk rnd s
  | .ishr => Sys2Proof.Machine.execIshr s
  | .isubb => Sys2Proof.Machine.execIsubb s
  | .imixc => Sys2Proof.Machine.execImixc s
  | .decblk => Sys2Proof.Machine.execDecblk s
  | .ecbdec => Sys2Proof.Machine.execEcbdec s

end Sys2Proof.Machine
end

