-- ==== Sys2Proof/Machine/Port.lean ====
section
/-! DEFINITION. The host port: the region map, the HostError rule, the gated reads and the plain writes
(20_memory.md R60 to R65; 10_state.md R21 to R32, R46). -/

namespace Sys2Proof.Machine

/-- The region of an id; "Region ids 9 and above do not exist" (R60). -/
def regionOf (id : Nat) : Option Region :=
  match id with
  | 0 => some .reg
  | 1 => some .key
  | 2 => some .st
  | 3 => some .ct
  | 4 => some .pt
  | 5 => some .sbox
  | 6 => some .isbox
  | 7 => some .rcon
  | 8 => some .ks
  | _ => none

/-- A region's size in bytes, given `DCAP` (R60). -/
def Region.size (dcap : Nat) : Region → Nat
  | .reg => 40
  | .key => 16
  | .st => 16
  | .ct => dcap
  | .pt => dcap
  | .sbox => 256
  | .isbox => 256
  | .rcon => 44
  | .ks => 176

/-- A region's unit, the only access width it has (R60, R63). -/
def Region.unit : Region → Width
  | .reg => .word
  | .key => .byte
  | .st => .byte
  | .ct => .byte
  | .pt => .byte
  | .sbox => .byte
  | .isbox => .byte
  | .rcon => .word
  | .ks => .word

/-- An access size in bytes (R61). -/
def Width.bytes : Width → Nat
  | .byte => 1
  | .word => 4

/-- The access size of a value (R61). -/
def Value.width : Value → Width
  | .byte _ => .byte
  | .word _ => .word

/-- The part of R64 that reads and writes share: region, range, width and alignment. -/
def checkAccess (dcap id off : Nat) (n : Width) : Except HostErrorReason Region :=
  match regionOf id with
  | none => .error .noSuchRegion
  | some r =>
    if Region.size dcap r < off + n.bytes then .error .beyondRegion
    else if n ≠ r.unit ∨ off % n.bytes ≠ 0 then .error .widthOrAlignment
    else .ok r

/-- Where the host may write (R60, R64; 10_state.md R46): CMD, OPA, OPB, KLEN, CLEN, KEY, ST and CT. -/
def hostWritable (r : Region) (off : Nat) : Bool :=
  match r with
  | .reg => off == 0x00 || off == 0x0C || off == 0x10 || off == 0x18 || off == 0x1C
  | .key => true
  | .st => true
  | .ct => true
  | .pt => false
  | .sbox => false
  | .isbox => false
  | .rcon => false
  | .ks => false

/-- A register as read (R65 (c); 10_state.md R46). `checkAccess` admits no other offset. -/
def regRead (s : State) (off : Nat) : Word :=
  match off with
  | 0x00 => 0#32
  | 0x04 => statusWord s.engine
  | 0x08 => errWord s.engine
  | 0x0C => s.engine.opa
  | 0x10 => s.engine.opb
  | 0x14 => s.engine.res
  | 0x18 => s.engine.klen
  | 0x1C => s.engine.clen
  | 0x20 => s.engine.plen
  | 0x24 => BitVec.ofNat 32 s.dcap
  | _ => 0#32

/-- The value of a location as read, gates included (R65 (b), (c)). `checkAccess` keeps `off` in range,
so no default of `getD` is ever seen. -/
def readLocation (s : State) (r : Region) (off : Nat) : Value :=
  match r with
  | .reg => .word (regRead s off)
  | .key => .byte (s.engine.key.toList.getD off 0#8)
  | .st => .byte (s.engine.st.toList.getD off 0#8)
  | .ct => .byte (s.ctByte off)
  | .pt => .byte (gatedByte (decide (off < s.engine.plen.toNat)) (s.ptByte off))
  | .sbox => .byte (gatedByte s.engine.sv (s.engine.sbox.toList.getD off 0#8))
  | .isbox => .byte (gatedByte s.engine.sv (s.engine.isbox.toList.getD off 0#8))
  | .rcon => .word (gatedWord s.engine.rv (s.engine.rcon.toList.getD (off / 4) 0#32))
  | .ks => .word (gatedWord s.engine.kv (s.engine.ks.toList.getD (off / 4) 0#32))

/-- `HostRead(region, off, n)` (R61, R65). It returns no state: "Every host read is free of side effects". -/
def hostRead (s : State) (id off : Nat) (n : Width) : Except HostErrorReason Value :=
  match checkAccess s.dcap id off n with
  | .error e => .error e
  | .ok r => .ok (readLocation s r off)

/-- What a write that the region map allows does: store, or run the command word written to CMD (R65 (d)). -/
inductive WriteAction where
  | stored (s : State)
  | command (w : Word)
  deriving DecidableEq, Repr

/-- A plain register write (R65 (d)); `hostWritable` admits no other offset. -/
def regWrite (s : State) (off : Nat) (v : Word) : State :=
  match off with
  | 0x0C => { s with engine.opa := v }
  | 0x10 => { s with engine.opb := v }
  | 0x18 => { s with engine.klen := v }
  | 0x1C => { s with engine.clen := v }
  | _ => s

/-- A write to a location the host may write: "stores the value and does nothing else", but for CMD (R65 (d)).
The pairs of region and width not listed are ruled out by `checkAccess`, and read-only regions by
`hostWritable`; they store nothing. -/
def writeLocation (s : State) (r : Region) (off : Nat) (v : Value) : WriteAction :=
  match r, v with
  | .reg, .word w => if off = 0x00 then .command w else .stored (regWrite s off w)
  | .key, .byte b => .stored { s with engine.key := s.engine.key.setIfInBounds off b }
  | .st, .byte b => .stored { s with engine.st := s.engine.st.setIfInBounds off b }
  | .ct, .byte b => .stored (s.setCtByte off b)
  | _, _ => .stored s

/-- `HostWrite(region, off, n, v)` (R61, R64, R65 (d)). -/
def hostWrite (s : State) (id off : Nat) (v : Value) : Except HostErrorReason WriteAction :=
  match checkAccess s.dcap id off v.width with
  | .error e => .error e
  | .ok r => if hostWritable r off then .ok (writeLocation s r off v) else .error .readOnly

end Sys2Proof.Machine
end

