-- ==== Sys2Proof/Machine/Command.lean ====
section
/-! DEFINITION. What one host event does: a command word is decoded and executed, a transaction is answered,
a reset resets (30_encoding.md R97; 20_memory.md R61, R66; 70_reset_and_hazards.md R250). -/

namespace Sys2Proof.Machine

/-- `HostWrite(REG, 0x00, 4, w)` (R97): decode, then execute or fail with IllegalCommand; one atomic step (R66). -/
def runCommand (w : Word) (s : State) : Host.Outcome State Fault Refusal :=
  match decode w with
  | .ok i => exec i s
  | .error _ => .next (s.fail .illegalCommand)

/-- Serve one event. "The bus outcome of a `CMD` write is `OK` whatever the command does" (R97), so its
reply stands before the command runs. A HostError ends the run as a fault (R64, log 6). -/
def serve (ev : HostEvent) (s : State) : Host.Outcome State Fault Refusal :=
  match ev with
  | .reset => .next s.afterReset
  | .transaction (.read id off n) =>
    match hostRead s id off n with
    | .ok v => .next { s with reply := some (.value v) }
    | .error e => .fault (.hostError e)
  | .transaction (.write id off v) =>
    match hostWrite s id off v with
    | .ok (.stored t) => .next { t with reply := some .done }
    | .ok (.command w) => runCommand w { s with reply := some .done }
    | .error e => .fault (.hostError e)

/-- The command word that the bits of an opcode-table row stand for, as a CMD write. Log 13. -/
def commandEvent (nbits w : Nat) : HostEvent :=
  .transaction (.write 0 0x00 (.word (BitVec.ofNat 32 (w % 2 ^ nbits))))

end Sys2Proof.Machine
end

