-- ==== Sys2Proof/Machine/Step.lean ====
section
/-! DEFINITION. One step: the engine serves the oldest host event that waits (20_memory.md R69); with none
waiting it is idle and "keeps all its state" (60_exceptions.md R236). -/

namespace Sys2Proof.Machine

/-- The step. There is no program counter (10_state.md R24): the host's events are the program. Log 5. -/
def step (s : State) : Host.Outcome State Fault Refusal :=
  match s.pending with
  | [] => .next s
  | ev :: rest => serve ev { s with pending := rest }

/-- `s` with the command word placed as the next thing the host sends: a write of it to CMD. Log 5, log 13. -/
def State.withFetchWord (s : State) (nbits w : Nat) : State :=
  { s with pending := commandEvent nbits w :: s.pending }

end Sys2Proof.Machine
end

