-- ==== Sys2Proof/Machine/Listing.lean ====
section
/-! DEFINITION. The listing lines of 30_encoding.md R96 as host events, for writing host programs. -/

namespace Sys2Proof.Machine

/-- The registers that `WR` and `RD` name (R96). -/
inductive RegName where
  | cmd | status | err | opa | opb | res | klen | clen | plen | cap
  deriving DecidableEq, Repr

/-- A register's byte offset in REG (10_state.md R46). -/
def RegName.offset : RegName → Nat
  | .cmd => 0x00
  | .status => 0x04
  | .err => 0x08
  | .opa => 0x0C
  | .opb => 0x10
  | .res => 0x14
  | .klen => 0x18
  | .clen => 0x1C
  | .plen => 0x20
  | .cap => 0x24

/-- A region's id (20_memory.md R60). -/
def Region.id : Region → Nat
  | .reg => 0
  | .key => 1
  | .st => 2
  | .ct => 3
  | .pt => 4
  | .sbox => 5
  | .isbox => 6
  | .rcon => 7
  | .ks => 8

/-- A command line: `HostWrite(REG, 0x00, 4, <command word>)`. -/
def lineCommand (i : Instr) : List HostEvent := [.transaction (.write 0 0x00 (.word (encode i)))]

/-- `TBLGEN` (R98). -/
def lineTblgen : List HostEvent := Instr.tblgen.flatMap lineCommand

/-- `WR <reg>, <value>`. -/
def lineWR (r : RegName) (v : Word) : List HostEvent := [.transaction (.write 0 r.offset (.word v))]

/-- `RD <reg>`. -/
def lineRD (r : RegName) : List HostEvent := [.transaction (.read 0 r.offset .word)]

/-- `WB <region>[<a>..), <bytes>`: byte writes from offset `a` upward. -/
def lineWB (r : Region) (a : Nat) : List Byte → List HostEvent
  | [] => []
  | b :: bs => .transaction (.write r.id a (.byte b)) :: lineWB r (a + 1) bs

/-- `RB <region>[<a>..<a + n>)`: `n` byte reads from offset `a` upward. -/
def lineRB (r : Region) (a n : Nat) : List HostEvent :=
  (List.range n).map fun i => .transaction (.read r.id (a + i) .byte)

/-- `RW <region>[<i>]`: a word read of RCON or KS at word index `i`. -/
def lineRW (r : Region) (i : Nat) : List HostEvent := [.transaction (.read r.id (4 * i) .word)]

end Sys2Proof.Machine
end

