-- ==== Sys2Proof/Safety.lean ====
section
/-! DEFINITION. What holds of every state a run can reach (10_state.md R42), what the host can see of a state
(20_memory.md R65, 10_state.md R43), and what a safe run is, in the terms claims use. -/

namespace Sys2Proof.Machine

/-- The two arrays hold the tables of 42_sbox_generator.md R131: `SBOX[a] = affine(inverse(a))` and
`ISBOX[SBOX[a]] = a` for every `a` (10_state.md R42 (a)). -/
def SboxTables (sbox isbox : Table) : Prop :=
  (∀ a : Byte, lookup sbox a = affine (inverse a)) ∧ ∀ a : Byte, lookup isbox (lookup sbox a) = a

/-- The array holds the eleven values printed in 43_key_schedule.md R151 (10_state.md R42 (b)). -/
def RconValues (rcon : RconTable) : Prop :=
  rcon.toList = [0x00000000#32, 0x01000000#32, 0x02000000#32, 0x04000000#32, 0x08000000#32, 0x10000000#32,
    0x20000000#32, 0x40000000#32, 0x80000000#32, 0x1b000000#32, 0x36000000#32]

/-- The invariant of 10_state.md R42, with what the model's own fields add (the last six). R42 (f), `ERR` in
0..5, holds by the type `ResultCode`. -/
structure StateInv (s : State) : Prop where
  /-- R42 (a) -/
  tables : s.engine.sv = true → SboxTables s.engine.sbox s.engine.isbox
  /-- R42 (b) -/
  rcon : s.engine.rv = true → RconValues s.engine.rcon
  /-- R42 (c) -/
  schedule : s.engine.kv = true → s.engine.sv = true ∧ s.engine.rv = true ∧
    ∃ key : Block, s.engine.ks = expandKey s.engine.sbox s.engine.rcon key
  /-- R42 (d) -/
  plenBlocks : s.engine.plen.toNat % 16 = 0
  /-- R42 (d) -/
  plenFits : s.engine.plen.toNat ≤ s.dcap
  /-- R42 (e) -/
  plenSchedule : 0 < s.engine.plen.toNat → s.engine.kv = true
  /-- 00_scope.md R7 -/
  capacity : Config.dcapLegal s.dcap = true
  /-- the canonical form of CT, and its size (10_state.md R38) -/
  ctForm : s.engine.ct.wf = true ∧ s.engine.ct.below s.dcap = true
  /-- the canonical form of PT, and its size (10_state.md R39) -/
  ptForm : s.engine.pt.wf = true ∧ s.engine.pt.below s.dcap = true
  /-- every byte of PT that the gate shows has been written: no free value is ever seen (U2) -/
  ptWritten : ∀ off, off < s.engine.plen.toNat → (s.engine.pt.read off).isSome = true

/-- Two states that the host cannot tell apart: they differ at most in storage that R43 and R65 hide, the
tables, RCON and KS while their flag is 0 and PT at and above PLEN. -/
structure SameView (s t : State) : Prop where
  registers : s.engine.opa = t.engine.opa ∧ s.engine.opb = t.engine.opb ∧ s.engine.res = t.engine.res ∧
    s.engine.klen = t.engine.klen ∧ s.engine.clen = t.engine.clen ∧ s.engine.plen = t.engine.plen ∧
    s.engine.err = t.engine.err
  flags : s.engine.sv = t.engine.sv ∧ s.engine.rv = t.engine.rv ∧ s.engine.kv = t.engine.kv
  buffers : s.engine.key = t.engine.key ∧ s.engine.st = t.engine.st ∧ s.engine.ct = t.engine.ct
  sboxes : s.engine.sv = true → s.engine.sbox = t.engine.sbox ∧ s.engine.isbox = t.engine.isbox
  rcon : s.engine.rv = true → s.engine.rcon = t.engine.rcon
  schedule : s.engine.kv = true → s.engine.ks = t.engine.ks
  plaintext : ∀ off, off < s.engine.plen.toNat → s.ptByte off = t.ptByte off
  outside : s.dcap = t.dcap ∧ s.resets = t.resets ∧ s.pending = t.pending ∧ s.reply = t.reply

/-- A safe run: no transaction of the host's ever draws a HostError (20_memory.md R64: such a program is
"faulted"). -/
def SafeRun (s : State) : Prop := ∀ (n : Nat) (f : Fault), Sys2Proof.core.run n s ≠ .fault f

end Sys2Proof.Machine
end

