-- ==== Sys2Proof/Certificates/Slice0/Obligations.lean ====
section
/-! DEFINITION. The statements for the provers. The first part, `Sys2Proof.Ref`, spells out the spec's own
descriptions in terms that use the model's state but not its computing functions, so that a statement
compares two readings of a rule. -/

namespace Sys2Proof.Ref

open Sys2Proof.Machine

/-- Carry-less product of two naturals, the second below 2^8: the XOR of the shifts of `a` at the 1 bits of `b`. -/
def clmul (a b : Nat) : Nat :=
  (List.range 8).foldl (fun acc i => if b.testBit i then acc ^^^ (a <<< i) else acc) 0

/-- `r` is the remainder of the polynomial product of `a` and `b` modulo 0x11B (41_gf_engine.md R110, R111). -/
def IsFieldProduct (a b r : Byte) : Prop :=
  ∃ q : Nat, q < 128 ∧ clmul a.toNat b.toNat = clmul 0x11B q ^^^ r.toNat

/-- Byte `k` of a word, byte 0 the most significant (00_scope.md R9). -/
def byte (k : Nat) (w : Word) : Byte := (w >>> (24 - 8 * k)).setWidth 8

/-- The four substituted bytes of a word, in order (42_sbox_generator.md R134). -/
def substituted (t : Table) (w : Word) : Word :=
  lookup t (byte 0 w) ++ lookup t (byte 1 w) ++ lookup t (byte 2 w) ++ lookup t (byte 3 w)

/-- Run commands one after the other. -/
def runAll : List Instr → State → Host.Outcome State Fault Refusal
  | [], s => .next s
  | i :: is, s =>
    match exec i s with
    | .next t => runAll is t
    | .fault f => .fault f
    | .refused r => .refused r

/-- From `s` to `t` the S-box tables have been ensured (R133): kept when valid, built when not, and valid after. -/
def EnsuredSbox (s t : State) : Prop :=
  (s.engine.sv = true → t.engine.sbox = s.engine.sbox ∧ t.engine.isbox = s.engine.isbox) ∧
  (s.engine.sv = false → SboxTables t.engine.sbox t.engine.isbox) ∧
  t.engine.sv = true

/-- From `s` to `t` the RCON table has been ensured (43_key_schedule.md R153). -/
def EnsuredRcon (s t : State) : Prop :=
  (s.engine.rv = true → t.engine.rcon = s.engine.rcon) ∧
  (s.engine.rv = false → RconValues t.engine.rcon) ∧
  t.engine.rv = true

/-- `ks` is the expansion of `key` (43_key_schedule.md R154): four big-endian key words, then the recurrence. -/
def IsSchedule (sbox : Table) (rcon : RconTable) (key : Block) (ks : Schedule) : Prop :=
  (∀ (i : Nat) (h : i < 4), ks[i] = key[4 * i] ++ key[4 * i + 1] ++ key[4 * i + 2] ++ key[4 * i + 3]) ∧
  (∀ (i : Nat) (h : i < 44), 4 ≤ i → i % 4 = 0 →
    ks[i] = ks[i - 4] ^^^ (substituted sbox (ks[i - 1].rotateLeft 8) ^^^ rcon[i / 4])) ∧
  (∀ (i : Nat) (h : i < 44), 4 ≤ i → i % 4 ≠ 0 → ks[i] = ks[i - 4] ^^^ ks[i - 1])

/-- `b` is `a` with round key `r` added (44_inverse_cipher.md R171). -/
def RoundKeyAdded (ks : Schedule) (r : Fin 11) (a b : Block) : Prop :=
  ∀ c k : Fin 4, b[4 * c.val + k.val] = a[4 * c.val + k.val] ^^^ byte k.val ks[4 * r.val + c.val]

/-- `b` is `a` with row `r` moved right by `r` columns (R173): `s'[r][(c+r)%4] = s[r][c]`. -/
def RowsShifted (a b : Block) : Prop :=
  ∀ r c : Fin 4, b[r.val + 4 * ((c.val + r.val) % 4)] = a[r.val + 4 * c.val]

/-- `b` is `a` with every byte replaced by its ISBOX entry (R175). -/
def BytesSubstituted (isbox : Table) (a b : Block) : Prop :=
  ∀ k : Fin 16, b[k] = lookup isbox a[k]

/-- Entry `i` of the base row `[0x0E, 0x0B, 0x0D, 0x09]` (00_scope.md R6, `MDS_ROW`). -/
def mdsRow (i : Nat) : Byte := [0x0E#8, 0x0B#8, 0x0D#8, 0x09#8].getD i 0#8

/-- `b` is `a` with every column multiplied by the matrix whose row `r` is the base row rotated right by `r`
(R177): `st'[4c + r] = XOR over j in 0..3 of multiply(M[(j - r) % 4], st[4c + j])`. -/
def ColumnsMixed (a b : Block) : Prop :=
  ∀ c r : Fin 4, ∃ p : Fin 4 → Byte,
    (∀ j : Fin 4, IsFieldProduct (mdsRow ((j.val + 4 - r.val) % 4)) a[4 * c.val + j.val] (p j)) ∧
    b[4 * c.val + r.val] = p 0 ^^^ p 1 ^^^ p 2 ^^^ p 3

/-- `out` is the decryption of `a` (R179): round 10, rounds 9 down to 1, round 0. -/
def DecryptsTo (isbox : Table) (ks : Schedule) (a out : Block) : Prop :=
  ∃ x : Nat → Block, RoundKeyAdded ks 10 a (x 10) ∧
    (∀ r : Fin 11, 1 ≤ r.val → r.val ≤ 9 → ∃ u v w : Block,
      RowsShifted (x (r.val + 1)) u ∧ BytesSubstituted isbox u v ∧ RoundKeyAdded ks r v w ∧
      ColumnsMixed w (x r.val)) ∧
    ∃ u v : Block, RowsShifted (x 1) u ∧ BytesSubstituted isbox u v ∧ RoundKeyAdded ks 0 v out

/-- The 40 commands of R181. -/
def primitives : List Instr :=
  [.ark 10, .ishr, .isubb, .ark 9, .imixc, .ishr, .isubb, .ark 8, .imixc, .ishr, .isubb, .ark 7, .imixc,
   .ishr, .isubb, .ark 6, .imixc, .ishr, .isubb, .ark 5, .imixc, .ishr, .isubb, .ark 4, .imixc,
   .ishr, .isubb, .ark 3, .imixc, .ishr, .isubb, .ark 2, .imixc, .ishr, .isubb, .ark 1, .imixc,
   .ishr, .isubb, .ark 0]

/-- The result code each command ends with, by the priority of 60_exceptions.md R228. -/
def resultCode (i : Instr) (s : State) : ResultCode :=
  match i with
  | .keyexp => if s.engine.klen = 16#32 then .ok else .invalidKeySize
  | .ark _ => if s.engine.kv then .ok else .scheduleNotValid
  | .decblk => if s.engine.kv then .ok else .scheduleNotValid
  | .ecbdec =>
    if s.engine.klen ≠ 16#32 then .invalidKeySize
    else if s.engine.clen.toNat % 16 ≠ 0 then .invalidBlockLength
    else if s.dcap < s.engine.clen.toNat then .lengthOverCapacity
    else .ok
  | _ => .ok

/-- A region's size in bytes, by id (20_memory.md R60). -/
def regionSize (dcap : Nat) : Nat → Nat
  | 0 => 0x28
  | 1 => 16
  | 2 => 16
  | 3 => dcap
  | 4 => dcap
  | 5 => 256
  | 6 => 256
  | 7 => 44
  | 8 => 176
  | _ => 0

/-- "a word region (REG, RCON, KS)" (R63). -/
def isWordRegion (id : Nat) : Prop := id = 0 ∨ id = 7 ∨ id = 8

/-- The access rule of R63 is broken, or the location does not exist (R64), for an access of `n` bytes. -/
def BadAccess (dcap id off n : Nat) : Prop :=
  8 < id ∨ regionSize dcap id < off + n ∨ (isWordRegion id ∧ (n ≠ 4 ∨ off % 4 ≠ 0)) ∨ (¬isWordRegion id ∧ n ≠ 1)

/-- "a location the host may not write (PT, SBOX, ISBOX, RCON, KS, and the registers STATUS, ERR, RES, PLEN,
CAP)" (R64). -/
def ReadOnly (id off : Nat) : Prop :=
  id = 4 ∨ id = 5 ∨ id = 6 ∨ id = 7 ∨ id = 8 ∨
  (id = 0 ∧ (off = 0x04 ∨ off = 0x08 ∨ off = 0x14 ∨ off = 0x20 ∨ off = 0x24))

/-- The transaction is a HostError (R64). -/
def IllFormed (dcap : Nat) : HostEvent → Prop
  | .transaction (.read id off .byte) => BadAccess dcap id off 1
  | .transaction (.read id off .word) => BadAccess dcap id off 4
  | .transaction (.write id off (.byte _)) => BadAccess dcap id off 1 ∨ ReadOnly id off
  | .transaction (.write id off (.word _)) => BadAccess dcap id off 4 ∨ ReadOnly id off
  | .reset => False

/-- The bits of STATUS (10_state.md R27). -/
def IsStatus (e : Engine) (v : Word) : Prop :=
  v[0] = e.sv ∧ v[1] = e.rv ∧ v[2] = e.kv ∧ ∀ (i : Nat) (h : i < 32), 3 ≤ i → v[i] = false

/-- The number of a result code (60_exceptions.md R220). -/
def codeNumber : ResultCode → Word
  | .ok => 0#32
  | .invalidKeySize => 1#32
  | .invalidBlockLength => 2#32
  | .lengthOverCapacity => 3#32
  | .scheduleNotValid => 4#32
  | .illegalCommand => 5#32

/-- What a read of `n` bytes at a location returns (20_memory.md R65 (b), (c)); a byte of CT or PT that was
never written is the model's free value, about which nothing is said but that it is a function of the state. -/
inductive Reads (s : State) : Nat → Nat → Width → Value → Prop where
  | cmd : Reads s 0 0x00 .word (.word 0#32)
  | status (v : Word) : IsStatus s.engine v → Reads s 0 0x04 .word (.word v)
  | err : Reads s 0 0x08 .word (.word (codeNumber s.engine.err))
  | opa : Reads s 0 0x0C .word (.word s.engine.opa)
  | opb : Reads s 0 0x10 .word (.word s.engine.opb)
  | res : Reads s 0 0x14 .word (.word s.engine.res)
  | klen : Reads s 0 0x18 .word (.word s.engine.klen)
  | clen : Reads s 0 0x1C .word (.word s.engine.clen)
  | plen : Reads s 0 0x20 .word (.word s.engine.plen)
  | cap : Reads s 0 0x24 .word (.word (BitVec.ofNat 32 s.dcap))
  | key (k : Fin 16) : Reads s 1 k.val .byte (.byte s.engine.key[k])
  | st (k : Fin 16) : Reads s 2 k.val .byte (.byte s.engine.st[k])
  | ct (off : Nat) : off < s.dcap → Reads s 3 off .byte (.byte (s.ctByte off))
  | pt (off : Nat) : off < s.dcap → off < s.engine.plen.toNat → Reads s 4 off .byte (.byte (s.ptByte off))
  | ptGated (off : Nat) : off < s.dcap → s.engine.plen.toNat ≤ off → Reads s 4 off .byte (.byte 0#8)
  | sbox (k : Fin 256) : s.engine.sv = true → Reads s 5 k.val .byte (.byte s.engine.sbox[k])
  | sboxGated (k : Fin 256) : s.engine.sv = false → Reads s 5 k.val .byte (.byte 0#8)
  | isbox (k : Fin 256) : s.engine.sv = true → Reads s 6 k.val .byte (.byte s.engine.isbox[k])
  | isboxGated (k : Fin 256) : s.engine.sv = false → Reads s 6 k.val .byte (.byte 0#8)
  | rcon (k : Fin 11) : s.engine.rv = true → Reads s 7 (4 * k.val) .word (.word s.engine.rcon[k])
  | rconGated (k : Fin 11) : s.engine.rv = false → Reads s 7 (4 * k.val) .word (.word 0#32)
  | ks (k : Fin 44) : s.engine.kv = true → Reads s 8 (4 * k.val) .word (.word s.engine.ks[k])
  | ksGated (k : Fin 44) : s.engine.kv = false → Reads s 8 (4 * k.val) .word (.word 0#32)

/-- What a plain write stores (R65 (d)), as a relation between the engine before and after. -/
inductive Stores (s : State) : Nat → Nat → Value → State → Prop where
  | opa (v : Word) : Stores s 0 0x0C (.word v) { s with engine := { s.engine with opa := v } }
  | opb (v : Word) : Stores s 0 0x10 (.word v) { s with engine := { s.engine with opb := v } }
  | klen (v : Word) : Stores s 0 0x18 (.word v) { s with engine := { s.engine with klen := v } }
  | clen (v : Word) : Stores s 0 0x1C (.word v) { s with engine := { s.engine with clen := v } }
  | key (k : Fin 16) (v : Byte) (b : Block) : b[k] = v → (∀ j : Fin 16, j ≠ k → b[j] = s.engine.key[j]) →
      Stores s 1 k.val (.byte v) { s with engine := { s.engine with key := b } }
  | st (k : Fin 16) (v : Byte) (b : Block) : b[k] = v → (∀ j : Fin 16, j ≠ k → b[j] = s.engine.st[j]) →
      Stores s 2 k.val (.byte v) { s with engine := { s.engine with st := b } }
  | ct (off : Nat) (v : Byte) (m : Memory) : off < s.dcap →
      m.read off = some v → (∀ a, a ≠ off → m.read a = s.engine.ct.read a) →
      Stores s 3 off (.byte v) { s with engine := { s.engine with ct := m } }

/-- Two states that agree on everything but the tables, RCON and their flags. -/
def SameButTables (s t : State) : Prop :=
  { s with engine := { s.engine with sbox := t.engine.sbox, isbox := t.engine.isbox, sv := t.engine.sv,
                                     rcon := t.engine.rcon, rv := t.engine.rv } } = t

end Sys2Proof.Ref

section
open Sys2Proof Sys2Proof.Machine Sys2Proof.Ref

/-! ## Encoding -/

/-- R93: a word decodes to a command exactly when R93's table selects that command's row, and "there are exactly
23 legal command words out of 2^32". -/
def Obligations.DecodeSelectsExactlyTheTableRow : Prop :=
  (∃ l : List Word, l.length = 23 ∧ l.Nodup ∧ ∀ w : Word, w ∈ l ↔ ∃ i : Instr, decode w = .ok i) ∧
  ∀ (w : Word) (i : Instr), decode w = .ok i ↔
    (w = 0x00000001#32 ∧ i = .gfmul) ∨ (w = 0x00000002#32 ∧ i = .gfinv) ∨ (w = 0x00000010#32 ∧ i = .sbgen) ∨
    (w = 0x00000011#32 ∧ i = .subw) ∨ (w = 0x00000012#32 ∧ i = .isubw) ∨ (w = 0x00000020#32 ∧ i = .rcgen) ∨
    (w = 0x00000021#32 ∧ i = .keyexp) ∨
    (w &&& 0xFFFFF0FF#32 = 0x00000030#32 ∧ (w.extractLsb' 8 4).toNat ≤ 10 ∧ i = .ark (w.extractLsb' 8 4)) ∨
    (w = 0x00000031#32 ∧ i = .ishr) ∨ (w = 0x00000032#32 ∧ i = .isubb) ∨ (w = 0x00000033#32 ∧ i = .imixc) ∨
    (w = 0x00000034#32 ∧ i = .decblk) ∨ (w = 0x00000040#32 ∧ i = .ecbdec)

/-- Decode and encode agree in both directions, on every word and every instruction term. -/
def Obligations.DecodeAndEncodeAgree : Prop :=
  ∀ (w : Word) (i : Instr), decode w = .ok i ↔ i.WellFormed ∧ encode i = w

/-- A few command words, written out from R91 and R93, decode to what they stand for (95_test_vectors.md V30). -/
def Obligations.SampleWordsDecodeAsListed : Prop :=
  decode 0x00000001#32 = .ok .gfmul ∧ decode 0x00000012#32 = .ok .isubw ∧ decode 0x00000021#32 = .ok .keyexp ∧
  decode 0x00000a30#32 = .ok (.ark 10) ∧ decode 0x00000034#32 = .ok .decblk ∧ decode 0x00000040#32 = .ok .ecbdec

/-! ## The step and the host port -/

/-- A CMD write runs the decoded command: the step is `exec` of it at the state in which the write has been
taken and answered OK; so too for the word that `withFetchWord` places. -/
def Obligations.StepRunsTheDecodedCommand : Prop :=
  ∀ (s : State) (rest : List HostEvent) (w : Word) (i : Instr), decode w = .ok i →
    (s.pending = .transaction (.write 0 0x00 (.word w)) :: rest →
      step s = exec i { s with pending := rest, reply := some .done }) ∧
    step (s.withFetchWord 32 w.toNat) = exec i { s with reply := some .done }

/-- R94, R225: a CMD write of any other word fails with IllegalCommand, answers OK and changes nothing else. -/
def Obligations.IllegalWordFailsWithCodeFive : Prop :=
  ∀ (s : State) (rest : List HostEvent) (w : Word),
    s.pending = .transaction (.write 0 0x00 (.word w)) :: rest →
    (∀ n ∈ [0x01#32, 0x02#32, 0x10#32, 0x11#32, 0x12#32, 0x20#32, 0x21#32, 0x31#32, 0x32#32, 0x33#32, 0x34#32,
      0x40#32], w ≠ n) →
    ¬(w &&& 0xFFFFF0FF#32 = 0x30#32 ∧ (w.extractLsb' 8 4).toNat ≤ 10) →
    step s = .next { s with engine := { s.engine with err := .illegalCommand }, pending := rest, reply := some .done }

/-- Events are served one at a time in the order the host issues them (R69), and a step changes neither the
capacity nor, but for a reset, the free contents of the buffers. With nothing to serve the engine is idle and
keeps all its state (R236). -/
def Obligations.StepServesOneEventInOrder : Prop :=
  ∀ s t : State, step s = .next t →
    (s.pending = [] → t = s) ∧
    (∀ ev rest, s.pending = ev :: rest → t.pending = rest ∧ t.dcap = s.dcap ∧
      ((ev = .reset ∧ t.resets = s.resets + 1 ∧ t.reply = none) ∨
       (ev ≠ .reset ∧ t.resets = s.resets ∧ t.reply.isSome = true)))

/-- R63, R64: exactly the transactions that the region map forbids are HostErrors (which the model answers
with a fault); every other event is served. -/
def Obligations.HostErrorExactlyWhenForbidden : Prop :=
  ∀ (s : State) (ev : HostEvent) (rest : List HostEvent), s.pending = ev :: rest →
    (IllFormed s.dcap ev → ∃ r, step s = .fault (.hostError r)) ∧
    (¬IllFormed s.dcap ev → ∃ t, step s = .next t)

/-- A whole run draws no HostError exactly when none of the host's waiting transactions is forbidden. -/
def Obligations.SafeRunExactlyWhenNoTransactionForbidden : Prop :=
  ∀ s : State, SafeRun s ↔ ∀ ev ∈ s.pending, ¬IllFormed s.dcap ev

/-- R65 (a) to (c): an allowed read answers the stored or gated value and changes nothing. -/
def Obligations.ReadAnswersStoredOrGatedValue : Prop :=
  ∀ (s : State) (rest : List HostEvent) (id off : Nat) (n : Width) (v : Value),
    s.pending = .transaction (.read id off n) :: rest → Reads s id off n v →
    step s = .next { s with pending := rest, reply := some (.value v) }

/-- R65 (d): an allowed write other than to CMD stores the value and does nothing else. -/
def Obligations.WriteStoresAndDoesNothingElse : Prop :=
  ∀ (s : State) (rest : List HostEvent) (id off : Nat) (v : Value),
    s.pending = .transaction (.write id off v) :: rest → ¬IllFormed s.dcap (.transaction (.write id off v)) →
    ¬(id = 0 ∧ off = 0x00) →
    ∃ t, Stores s id off v t ∧ step s = .next { t with pending := rest, reply := some .done }

/-- R69 (a): a read right after a write to the same location answers the value written, for every location the
host may both write and read but CMD. -/
def Obligations.ReadAfterWriteAnswersTheValue : Prop :=
  ∀ (s t : State) (rest : List HostEvent) (id off : Nat) (v : Value),
    s.pending = .transaction (.write id off v) :: .transaction (.read id off v.width) :: rest →
    ¬(id = 0 ∧ off = 0x00) → step s = .next t →
    ∃ u, step t = .next u ∧ u.reply = some (.value v) ∧ u.pending = rest ∧ u.engine = t.engine

/-! ## Reset -/

/-- R43: a reset event, from any state, leaves every register, flag, KEY and ST at its reset value; `State.reset`
is such a state. Of KS, the tables, RCON, PT and CT, which R43 leaves unspecified, nothing is said. -/
def Obligations.ResetLeavesTheTableOfResetValues : Prop :=
  ∀ e : Engine, (e = State.reset.engine ∨
      ∃ s t rest, s.pending = .reset :: rest ∧ step s = .next t ∧ t.engine = e) →
    e.opa = 0#32 ∧ e.opb = 0#32 ∧ e.res = 0#32 ∧ e.sv = false ∧ e.rv = false ∧ e.kv = false ∧ e.err = .ok ∧
    e.klen = 0#32 ∧ e.clen = 0#32 ∧ e.plen = 0#32 ∧ (∀ k : Fin 16, e.key[k] = 0#8) ∧ (∀ k : Fin 16, e.st[k] = 0#8)

/-- R250: a reset event is always served, keeps the capacity and the host's further events, and leaves nothing
written in CT and PT, whose unwritten bytes are free values (the model's choice, logs 2, 3 and 8). -/
def Obligations.ResetIsAlwaysServedAndForgetsTheBuffers : Prop :=
  ∀ (s : State) (rest : List HostEvent), s.pending = .reset :: rest →
    ∃ t, step s = .next t ∧ t.pending = rest ∧ t.dcap = s.dcap ∧ t.resets = s.resets + 1 ∧
      ∀ off, t.engine.ct.read off = none ∧ t.engine.pt.read off = none

/-- R251: what each command does as the first one after reset, and that reads of gated regions return zeros. The
results 0x63636363 and 0x52525252 in RES and sixteen 0x52 in ST are the corner cases of R136, R137 and R176. -/
def Obligations.CommandsAfterResetActAsListed : Prop :=
  ∀ s : State, s.engine = State.reset.engine →
    exec .gfmul s = .next s ∧ exec .gfinv s = .next s ∧ exec .ishr s = .next s ∧ exec .imixc s = .next s ∧
    (∃ t, exec .sbgen s = .next t ∧ t.engine.sv = true ∧ t.engine.err = .ok) ∧
    (∃ t, exec .rcgen s = .next t ∧ t.engine.rv = true ∧ t.engine.err = .ok) ∧
    (∃ t, exec .subw s = .next t ∧ t.engine.sv = true ∧ t.engine.res = 0x63636363#32 ∧ t.engine.err = .ok) ∧
    (∃ t, exec .isubw s = .next t ∧ t.engine.sv = true ∧ t.engine.res = 0x52525252#32 ∧ t.engine.err = .ok) ∧
    (∃ t, exec .isubb s = .next t ∧ t.engine.sv = true ∧ (∀ k : Fin 16, t.engine.st[k] = 0x52#8) ∧
      t.engine.err = .ok) ∧
    (∀ r : BitVec 4, r.toNat ≤ 10 →
      exec (.ark r) s = .next { s with engine := { s.engine with err := .scheduleNotValid } }) ∧
    exec .decblk s = .next { s with engine := { s.engine with err := .scheduleNotValid } } ∧
    exec .keyexp s = .next { s with engine := { s.engine with err := .invalidKeySize } } ∧
    exec .ecbdec s = .next { s with engine := { s.engine with err := .invalidKeySize } } ∧
    ∀ (id off : Nat) (n : Width), 4 ≤ id → ¬IllFormed s.dcap (.transaction (.read id off n)) →
      ∃ v, hostRead s id off n = .ok v ∧ (v = .byte 0#8 ∨ v = .word 0#32)

/-! ## Component 1: the field engine -/

/-- R114: GFMUL. -/
def Obligations.GfmulLeavesTheFieldProductInRes : Prop :=
  decode 0x00000001#32 = .ok .gfmul ∧
  ∀ s : State, ∃ r : Byte,
    IsFieldProduct (s.engine.opa.extractLsb' 0 8) (s.engine.opb.extractLsb' 0 8) r ∧
    r = multiply (s.engine.opa.extractLsb' 0 8) (s.engine.opb.extractLsb' 0 8) ∧
    exec .gfmul s = .next { s with engine := { s.engine with res := r.setWidth 32, err := .ok } }

/-- R115: GFINV. -/
def Obligations.GfinvLeavesTheFieldInverseInRes : Prop :=
  decode 0x00000002#32 = .ok .gfinv ∧
  ∀ s : State, ∃ r : Byte,
    (s.engine.opa.extractLsb' 0 8 = 0#8 → r = 0#8) ∧
    (s.engine.opa.extractLsb' 0 8 ≠ 0#8 → IsFieldProduct (s.engine.opa.extractLsb' 0 8) r 1#8) ∧
    r = inverse (s.engine.opa.extractLsb' 0 8) ∧
    exec .gfinv s = .next { s with engine := { s.engine with res := r.setWidth 32, err := .ok } }

/-- The laws of `multiply` that R112 lists, which the spec marks "[derived: from rule R111, checked exhaustively ...
by the author's computation of rule R111]": an inference of the spec's own, so the basis is derived, from R111. -/
def Obligations.MultiplyObeysTheFieldLaws : Prop :=
  (∀ a b : Byte, multiply a b = multiply b a) ∧
  (∀ a b c : Byte, multiply (multiply a b) c = multiply a (multiply b c)) ∧
  (∀ a b c : Byte, multiply a (b ^^^ c) = multiply a b ^^^ multiply a c) ∧
  (∀ a : Byte, multiply a 0x01#8 = a) ∧
  (∀ a : Byte, multiply a 0x00#8 = 0x00#8) ∧
  (∀ a : Byte, a ≠ 0#8 → Function.Bijective (multiply a)) ∧
  (∀ a b : Byte, multiply a b = 0#8 ↔ a = 0#8 ∨ b = 0#8) ∧
  (∀ v : Byte, multiply v 0x02#8 = (v <<< 1) ^^^ (if v[7] then 0x1B#8 else 0x00#8)) ∧
  (List.range 12).map (fun n => (fun v => multiply v 0x02#8)^[n] 0x01#8) =
    [0x01#8, 0x02#8, 0x04#8, 0x08#8, 0x10#8, 0x20#8, 0x40#8, 0x80#8, 0x1b#8, 0x36#8, 0x6c#8, 0xd8#8] ∧
  (∀ n : Nat, (fun v => multiply v 0x03#8)^[n] 0x01#8 = 0x01#8 ↔ n % 255 = 0)

/-- R113: `inverse` is the 254th power, `inverse(0) = 0` and the product with a nonzero operand is 1. The spec marks
`inverse(inverse(a)) = a` and `inverse(0x01) = 0x01` "[derived: from rule R111]", its own inference, so the basis is
derived. -/
def Obligations.InverseIsThe254thPowerAndInverts : Prop :=
  (∀ a : Byte, inverse a = (fun r => multiply r a)^[254] 0x01#8) ∧
  inverse 0x00#8 = 0x00#8 ∧ inverse 0x01#8 = 0x01#8 ∧ inverse 0x53#8 = 0xCA#8 ∧
  (∀ a : Byte, a ≠ 0#8 → multiply a (inverse a) = 0x01#8) ∧
  (∀ a : Byte, inverse (inverse a) = a)

/-! ## Component 2: the S-box generator -/

/-- Each output bit of `affine` before the final XOR, as the parity of a pattern row (R130's own definition) and as
R130 spells it out; the eight rows; the values R130 gives; and `affine` is a bijection on bytes. The spec marks the
rows "[derived: from rule R8]", the spelled-out bits "[derived: from rule R130]" and the bijection "[derived: the table
of rule R131 is a permutation and inverse is a bijection]": inferences of its own, so the basis is derived. -/
def Obligations.AffineIsTheBitMatrixAndABijection : Prop :=
  (∀ (x : Byte) (i : Nat), i < 8 → (affine x ^^^ 0x63#8).getLsbD i = parity (x &&& rotl8 0xF1#8 i)) ∧
  (List.range 8).map (rotl8 0xF1#8) = [0xF1#8, 0xE3#8, 0xC7#8, 0x8F#8, 0x1F#8, 0x3E#8, 0x7C#8, 0xF8#8] ∧
  (∀ (x : Byte) (i : Nat), i < 8 →
    (affine x ^^^ 0x63#8).getLsbD i =
      (x.getLsbD i ^^ x.getLsbD ((i + 4) % 8) ^^ x.getLsbD ((i + 5) % 8) ^^ x.getLsbD ((i + 6) % 8) ^^
        x.getLsbD ((i + 7) % 8))) ∧
  affine 0x00#8 = 0x63#8 ∧ affine 0x01#8 = 0x7C#8 ∧ affine 0xCA#8 = 0xED#8 ∧
  Function.Bijective affine

/-- R131: the built tables are the two inverse permutations, and depend neither on what the arrays held nor on the
order in which `a` runs. `SBOX[ISBOX[y]] = y` for all `y` stands in 95_test_vectors.md V1, not in R131. -/
def Obligations.TableBuildGivesInversePermutationsWhateverWasThere : Prop :=
  ∀ t u : Table × Table, buildSboxTables t = buildSboxTables u ∧
    (∀ order : List (Fin 256), order.Perm (List.finRange 256) → order.foldl sboxStep t = buildSboxTables t) ∧
    SboxTables (buildSboxTables t).1 (buildSboxTables t).2 ∧
    Function.Bijective (lookup (buildSboxTables t).1) ∧
    (∀ y : Byte, lookup (buildSboxTables t).1 (lookup (buildSboxTables t).2 y) = y) ∧
    lookup (buildSboxTables t).1 0x00#8 = 0x63#8 ∧ lookup (buildSboxTables t).1 0x01#8 = 0x7C#8 ∧
    lookup (buildSboxTables t).1 0x53#8 = 0xED#8 ∧ lookup (buildSboxTables t).1 0xFF#8 = 0x16#8 ∧
    lookup (buildSboxTables t).2 0x00#8 = 0x52#8 ∧ lookup (buildSboxTables t).2 0x63#8 = 0x00#8

/-- R132: SBGEN. Issued when `SV = 1` it writes the same values, so only `ERR <- 0` is left. -/
def Obligations.SbgenBuildsTheTables : Prop :=
  decode 0x00000010#32 = .ok .sbgen ∧
  ∀ s : State, ∃ t : State, exec .sbgen s = .next t ∧ SboxTables t.engine.sbox t.engine.isbox ∧
    t = { s with engine := { s.engine with sbox := t.engine.sbox, isbox := t.engine.isbox, sv := true, err := .ok } } ∧
    (s.engine.sv = true → SboxTables s.engine.sbox s.engine.isbox →
      t = { s with engine := { s.engine with err := .ok } })

/-- R136 with R134: SUBW. -/
def Obligations.SubwSubstitutesEachByteThroughSbox : Prop :=
  decode 0x00000011#32 = .ok .subw ∧
  ∀ s : State, ∃ t : State, exec .subw s = .next t ∧ EnsuredSbox s t ∧
    t.engine.res = substituted t.engine.sbox s.engine.opa ∧
    t = { s with engine := { s.engine with sbox := t.engine.sbox, isbox := t.engine.isbox, sv := true,
                                           res := t.engine.res, err := .ok } }

/-- R137 with R135: ISUBW. -/
def Obligations.IsubwSubstitutesEachByteThroughIsbox : Prop :=
  decode 0x00000012#32 = .ok .isubw ∧
  ∀ s : State, ∃ t : State, exec .isubw s = .next t ∧ EnsuredSbox s t ∧
    t.engine.res = substituted t.engine.isbox s.engine.opa ∧
    t = { s with engine := { s.engine with sbox := t.engine.sbox, isbox := t.engine.isbox, sv := true,
                                           res := t.engine.res, err := .ok } }

/-- R135: substituting forward and back, in either order, gives the word back. -/
def Obligations.WordSubstitutionsUndoEachOther : Prop :=
  ∀ s t u : State, (s.engine.sv = true → SboxTables s.engine.sbox s.engine.isbox) →
    (exec .subw s = .next t → exec .isubw { t with engine := { t.engine with opa := t.engine.res } } = .next u →
      u.engine.res = s.engine.opa) ∧
    (exec .isubw s = .next t → exec .subw { t with engine := { t.engine with opa := t.engine.res } } = .next u →
      u.engine.res = s.engine.opa)

/-! ## Component 3: the key schedule -/

/-- R150 with R9: `rotw(word(b0, b1, b2, b3)) = word(b1, b2, b3, b0)`, where byte 0 of a word is its top byte. -/
def Obligations.RotwMovesEveryByteOnePlaceLeft : Prop :=
  (∀ b0 b1 b2 b3 : Byte, rotw (word b0 b1 b2 b3) = word b1 b2 b3 b0 ∧ word b0 b1 b2 b3 = b0 ++ b1 ++ b2 ++ b3) ∧
  (∀ w : Word, word (byteOf 0 w) (byteOf 1 w) (byteOf 2 w) (byteOf 3 w) = w ∧ ∀ k < 4, byteOf k w = byte k w) ∧
  rotw 0x09CF4F3C#32 = 0xCF4F3C09#32

/-- R152 with R151: RCGEN. The eleven values are those R151 prints, which it marks "[derived: from rule R111]",
its own inference, so the basis is derived. -/
def Obligations.RcgenBuildsTheElevenConstants : Prop :=
  decode 0x00000020#32 = .ok .rcgen ∧
  ∀ s : State, ∃ t : State, exec .rcgen s = .next t ∧ RconValues t.engine.rcon ∧
    t = { s with engine := { s.engine with rcon := t.engine.rcon, rv := true, err := .ok } }

/-- R155 with R154: KEYEXP on a 16-byte key. -/
def Obligations.KeyexpExpandsTheKey : Prop :=
  decode 0x00000021#32 = .ok .keyexp ∧
  ∀ s : State,
    (s.engine.klen ≠ 16#32 →
      exec .keyexp s = .next { s with engine := { s.engine with err := .invalidKeySize } }) ∧
    (s.engine.klen = 16#32 → ∃ t : State, exec .keyexp s = .next t ∧ EnsuredSbox s t ∧ EnsuredRcon s t ∧
      IsSchedule t.engine.sbox t.engine.rcon s.engine.key t.engine.ks ∧
      t = { s with engine := { s.engine with sbox := t.engine.sbox, isbox := t.engine.isbox, sv := true,
                                             rcon := t.engine.rcon, rv := true, ks := t.engine.ks, kv := true,
                                             err := .ok } })

/-! ## Component 4: the inverse cipher -/

/-- R172 with R171: ARK, its failures and its double application. A word with opcode 0x30 whose round is above 10
or whose zero field is nonzero is an IllegalCommand, whatever `KV` is. `ARK 0` XORs the cipher key itself into ST where
KS is the schedule of a key (43_key_schedule.md R157; with `KV = 1` it is, by R42 (c), `StateInv.schedule`). -/
def Obligations.ArkAddsTheRoundKey : Prop :=
  ∀ (r : BitVec 4) (s : State),
    (∀ w : Word, w.extractLsb' 0 8 = 0x30#8 → (10 < (w.extractLsb' 8 4).toNat ∨ w.extractLsb' 12 20 ≠ 0#20) →
      runCommand w s = .next { s with engine := { s.engine with err := .illegalCommand } }) ∧
    (∀ h : r.toNat ≤ 10,
      decode (0x00000030#32 ||| (r.setWidth 32 <<< 8)) = .ok (.ark r) ∧
      (s.engine.kv = false →
        exec (.ark r) s = .next { s with engine := { s.engine with err := .scheduleNotValid } }) ∧
      (s.engine.kv = true → ∃ b : Block,
        RoundKeyAdded s.engine.ks ⟨r.toNat, by omega⟩ s.engine.st b ∧
        exec (.ark r) s = .next { s with engine := { s.engine with st := b, err := .ok } } ∧
        runAll [.ark r, .ark r] s = .next { s with engine := { s.engine with err := .ok } })) ∧
    (∀ key : Block, s.engine.kv = true → s.engine.ks = expandKey s.engine.sbox s.engine.rcon key →
      ∃ b : Block, (∀ j : Fin 16, b[j] = s.engine.st[j] ^^^ key[j]) ∧
        exec (.ark 0) s = .next { s with engine := { s.engine with st := b, err := .ok } })

/-- R174 with R173: ISHR; four of them restore ST. -/
def Obligations.IshrShiftsTheRowsRight : Prop :=
  decode 0x00000031#32 = .ok .ishr ∧
  ∀ s : State, (∃ b : Block, RowsShifted s.engine.st b ∧
      exec .ishr s = .next { s with engine := { s.engine with st := b, err := .ok } }) ∧
    runAll [.ishr, .ishr, .ishr, .ishr] s = .next { s with engine := { s.engine with err := .ok } }

/-- R259 (a): the source positions of InvShiftRows are a permutation of 0..15: no byte is duplicated or omitted. -/
def Obligations.ShiftRowsIsAPermutationOfPositions : Prop :=
  ∃ p : Equiv.Perm (Fin 16), ∀ st : Block, ∀ k : Fin 16, (invShiftRows st)[k] = st[p k] ∧ (p k).val % 4 = k.val % 4

/-- R176 with R175: ISUBB. -/
def Obligations.IsubbSubstitutesEveryByteThroughIsbox : Prop :=
  decode 0x00000032#32 = .ok .isubb ∧
  ∀ s : State, ∃ t : State, exec .isubb s = .next t ∧ EnsuredSbox s t ∧
    BytesSubstituted t.engine.isbox s.engine.st t.engine.st ∧
    t = { s with engine := { s.engine with sbox := t.engine.sbox, isbox := t.engine.isbox, sv := true,
                                           st := t.engine.st, err := .ok } }

/-- R178 with R177: IMIXC; a State of sixteen equal bytes is unchanged (R178). That a column of four equal bytes maps
to itself the spec marks "[derived: from rule R177 and 41_gf_engine.md rule R112]", its own inference, so the basis is
derived. -/
def Obligations.ImixcMultipliesEveryColumn : Prop :=
  decode 0x00000033#32 = .ok .imixc ∧
  ∀ s : State, (∃ b : Block, ColumnsMixed s.engine.st b ∧
      (∀ c : Fin 4, (∀ r : Fin 4, s.engine.st[4 * c.val + r.val] = s.engine.st[4 * c.val]) →
        ∀ r : Fin 4, b[4 * c.val + r.val] = s.engine.st[4 * c.val]) ∧
      exec .imixc s = .next { s with engine := { s.engine with st := b, err := .ok } }) ∧
    ((∀ k : Fin 16, s.engine.st[k] = s.engine.st[0]) →
      exec .imixc s = .next { s with engine := { s.engine with err := .ok } })

/-- R180 with R179: DECBLK. -/
def Obligations.DecblkDecryptsTheBlock : Prop :=
  decode 0x00000034#32 = .ok .decblk ∧
  ∀ s : State,
    (s.engine.kv = false →
      exec .decblk s = .next { s with engine := { s.engine with err := .scheduleNotValid } }) ∧
    (s.engine.kv = true → ∃ b : Block, DecryptsTo s.engine.isbox s.engine.ks s.engine.st b ∧
      exec .decblk s = .next { s with engine := { s.engine with st := b, err := .ok } })

/-- The 40 primitive commands leave exactly what one DECBLK leaves: R181, which the spec marks "[derived: from rules
R172, R174, R176, R178, R179, R180]", an inference of its own, so the basis is derived. `KV = 1` implies `SV = 1` in
every reachable state (R42 (c), the invariant `StateInv.schedule`), so `SV = 1` is a premise. -/
def Obligations.FortyPrimitivesEqualOneDecblk : Prop :=
  primitives.length = 40 ∧
  ∀ s : State, s.engine.kv = true → s.engine.sv = true →
    ∃ t : State, exec .decblk s = .next t ∧ runAll primitives s = .next t

/-! ## Component 5: the ECB driver -/

/-- R203 with R202, R204 and R207: ECBDEC. Its failures come in priority order and change ERR alone; on lengths
that pass the three validations the schedule of KEY is expanded, every block is decrypted, and nothing else changes. -/
def Obligations.EcbdecDecryptsEveryBlockOrFails : Prop :=
  decode 0x00000040#32 = .ok .ecbdec ∧
  ∀ s : State,
    (s.engine.klen ≠ 16#32 → exec .ecbdec s = .next { s with engine := { s.engine with err := .invalidKeySize } }) ∧
    (s.engine.klen = 16#32 → s.engine.clen.toNat % 16 ≠ 0 →
      exec .ecbdec s = .next { s with engine := { s.engine with err := .invalidBlockLength } }) ∧
    (s.engine.klen = 16#32 → s.engine.clen.toNat % 16 = 0 → s.dcap < s.engine.clen.toNat →
      exec .ecbdec s = .next { s with engine := { s.engine with err := .lengthOverCapacity } }) ∧
    (s.engine.klen = 16#32 → s.engine.clen.toNat % 16 = 0 → s.engine.clen.toNat ≤ s.dcap →
      ∃ t : State, exec .ecbdec s = .next t ∧ EnsuredSbox s t ∧ EnsuredRcon s t ∧
        IsSchedule t.engine.sbox t.engine.rcon s.engine.key t.engine.ks ∧
        (∀ k, k < s.engine.clen.toNat / 16 → ∃ a b : Block,
          (∀ j : Fin 16, a[j] = s.ctByte (16 * k + j.val)) ∧ DecryptsTo t.engine.isbox t.engine.ks a b ∧
          ∀ j : Fin 16, t.ptByte (16 * k + j.val) = b[j]) ∧
        (∀ off, s.engine.clen.toNat ≤ off → t.ptByte off = s.ptByte off) ∧
        (16 ≤ s.engine.clen.toNat →
          ∀ j : Fin 16, t.engine.st[j] = t.ptByte (s.engine.clen.toNat - 16 + j.val)) ∧
        (s.engine.clen.toNat = 0 → t.engine.st = s.engine.st ∧ t.engine.pt = s.engine.pt) ∧
        t = { s with engine := { s.engine with sbox := t.engine.sbox, isbox := t.engine.isbox, sv := true,
                                               rcon := t.engine.rcon, rv := true, ks := t.engine.ks, kv := true,
                                               st := t.engine.st, pt := t.engine.pt, plen := s.engine.clen,
                                               err := .ok } })

/-- R205, R201: an output block is a function of the input block at the same offset and KS only. In two runs that
differ in CT alone, and between two blocks of one run, equal ciphertext blocks give equal plaintext blocks;
CT at and above CLEN is never read. -/
def Obligations.PlaintextBlockDependsOnlyOnItsCiphertextBlock : Prop :=
  ∀ (s t u : State) (ct : Memory) (k l : Nat),
    exec .ecbdec s = .next t → exec .ecbdec { s with engine := { s.engine with ct := ct } } = .next u →
    t.engine.err = .ok → k < s.engine.clen.toNat / 16 → l < s.engine.clen.toNat / 16 →
    (∀ j : Fin 16, s.ctByte (16 * k + j.val) =
      State.ctByte { s with engine := { s.engine with ct := ct } } (16 * l + j.val)) →
    ∀ j : Fin 16, t.ptByte (16 * k + j.val) = u.ptByte (16 * l + j.val)

/-- R73: the order in which ECBDEC's blocks are processed cannot be seen in the plaintext buffer. -/
def Obligations.BlockOrderCannotBeObservedInPt : Prop :=
  ∀ (s : State) (n : Nat) (order : List Nat), order.Perm (List.range n) →
    ∀ off, (order.foldl State.ecbBlock s).ptByte off = (s.ecbBlocks n).ptByte off

/-! ## Result codes, flags, write rights -/

/-- R220, R228, R237: every command, in every state, answers a next state with the result code of R228's
priority; no command faults, is refused or hangs. -/
def Obligations.EveryCommandEndsWithItsResultCode : Prop :=
  ∀ (i : Instr) (s : State), i.WellFormed → ∃ t, exec i s = .next t ∧ t.engine.err = resultCode i s

/-- R229: a command that fails changes nothing but ERR: said of every instruction, and of every word written to
CMD, the illegal ones too. -/
def Obligations.FailedCommandChangesErrOnly : Prop :=
  ∀ s t : State, ((∃ i : Instr, exec i s = .next t) ∨ ∃ w : Word, runCommand w s = .next t) → t.engine.err ≠ .ok →
    t = { s with engine := { s.engine with err := t.engine.err } }

/-- R25: which commands set each flag, and that nothing but a reset clears one. -/
def Obligations.FlagsAreSetByTheListedCommandsAndClearedByResetOnly : Prop :=
  (∀ (i : Instr) (s t : State), exec i s = .next t →
    (t.engine.sv = true ↔ s.engine.sv = true ∨ (t.engine.err = .ok ∧
      (i = .sbgen ∨ i = .subw ∨ i = .isubw ∨ i = .keyexp ∨ i = .isubb ∨ i = .ecbdec))) ∧
    (t.engine.rv = true ↔ s.engine.rv = true ∨ (t.engine.err = .ok ∧ (i = .rcgen ∨ i = .keyexp ∨ i = .ecbdec))) ∧
    (t.engine.kv = true ↔ s.engine.kv = true ∨ (t.engine.err = .ok ∧ (i = .keyexp ∨ i = .ecbdec)))) ∧
  (∀ s t : State, step s = .next t → s.pending.head? ≠ some .reset →
    (s.engine.sv = true → t.engine.sv = true) ∧ (s.engine.rv = true → t.engine.rv = true) ∧
    (s.engine.kv = true → t.engine.kv = true))

/-- R44, the frame of every command and of every host transaction: what each may write, and that it writes nothing
else, to no register, table or buffer, and (a command) nothing outside the engine. -/
def Obligations.CommandsAndHostWriteOnlyWhatTheyMay : Prop :=
  (∀ (s t : State) (ev : HostEvent) (rest : List HostEvent), s.pending = ev :: rest → ev ≠ .reset →
    (∀ w, ev ≠ .transaction (.write 0 0x00 (.word w))) → step s = .next t →
    t.engine = { s.engine with opa := t.engine.opa, opb := t.engine.opb, klen := t.engine.klen,
                               clen := t.engine.clen, key := t.engine.key, st := t.engine.st, ct := t.engine.ct }) ∧
  (∀ (i : Instr) (s t : State), exec i s = .next t →
    (t.engine.opa = s.engine.opa ∧ t.engine.opb = s.engine.opb ∧ t.engine.klen = s.engine.klen ∧
      t.engine.clen = s.engine.clen ∧ t.engine.key = s.engine.key ∧ t.engine.ct = s.engine.ct) ∧
    (∀ off, t.ctByte off = s.ctByte off) ∧
    (t.dcap = s.dcap ∧ t.resets = s.resets ∧ t.pending = s.pending ∧ t.reply = s.reply) ∧
    ((∃ r, i = .ark r) ∨ i = .ishr ∨ i = .isubb ∨ i = .imixc ∨ i = .decblk ∨ i = .ecbdec ∨
      t.engine.st = s.engine.st) ∧
    (i = .gfmul ∨ i = .gfinv ∨ i = .subw ∨ i = .isubw ∨ t.engine.res = s.engine.res) ∧
    (i = .sbgen ∨ (s.engine.sv = false ∧ (i = .subw ∨ i = .isubw ∨ i = .keyexp ∨ i = .isubb ∨ i = .ecbdec)) ∨
      (t.engine.sbox = s.engine.sbox ∧ t.engine.isbox = s.engine.isbox ∧ t.engine.sv = s.engine.sv)) ∧
    (i = .rcgen ∨ (s.engine.rv = false ∧ (i = .keyexp ∨ i = .ecbdec)) ∨
      (t.engine.rcon = s.engine.rcon ∧ t.engine.rv = s.engine.rv)) ∧
    (i = .keyexp ∨ i = .ecbdec ∨ (t.engine.ks = s.engine.ks ∧ t.engine.kv = s.engine.kv)) ∧
    (i = .ecbdec ∨ (t.engine.pt = s.engine.pt ∧ t.engine.plen = s.engine.plen ∧ ∀ off, t.ptByte off = s.ptByte off)) ∧
    (∀ off, s.engine.clen.toNat ≤ off → t.ptByte off = s.ptByte off))

/-- R254: writing KEY or KLEN leaves KS and KV alone, so DECBLK goes on with the old schedule; a failed KEYEXP
leaves them too; ECBDEC expands the KEY it finds. -/
def Obligations.KeyWritesLeaveTheOldScheduleInUse : Prop :=
  ∀ (s t : State) (rest : List HostEvent) (id off : Nat) (v : Value),
    s.pending = .transaction (.write id off v) :: rest → (id = 1 ∨ (id = 0 ∧ off = 0x18)) → step s = .next t →
    t.engine.ks = s.engine.ks ∧ t.engine.kv = s.engine.kv ∧
    (∀ u w, exec .decblk s = .next u → exec .decblk t = .next w →
      w.engine.st = u.engine.st ∧ w.engine.err = u.engine.err) ∧
    (∀ u, exec .keyexp t = .next u → t.engine.klen ≠ 16#32 →
      u.engine.ks = s.engine.ks ∧ u.engine.kv = s.engine.kv) ∧
    (∀ u, exec .ecbdec t = .next u → u.engine.err = .ok →
      IsSchedule u.engine.sbox u.engine.rcon t.engine.key u.engine.ks)

/-! ## Whole-machine properties -/

/-- R42 at reset. The capacity 4096 is the model's choice (log 1). -/
def Obligations.ResetStateMeetsTheInvariant : Prop := StateInv State.reset

/-- R42: every step keeps the invariant, from every state that meets it. -/
def Obligations.StepKeepsTheInvariant : Prop :=
  ∀ s t : State, StateInv s → step s = .next t → StateInv t

/-- R258: tables are immutable: while valid they are never changed, by any event but a reset. -/
def Obligations.ValidTablesNeverChangeUntilReset : Prop :=
  ∀ s t : State, StateInv s → step s = .next t → s.pending.head? ≠ some .reset →
    (s.engine.sv = true → t.engine.sbox = s.engine.sbox ∧ t.engine.isbox = s.engine.isbox) ∧
    (s.engine.rv = true → t.engine.rcon = s.engine.rcon)

/-- R258: no command's result depends on whether the tables were built eagerly (TBLGEN, R98) or lazily: with
TBLGEN before it, a command leaves the same state but for the tables and their flags, and where both have the
tables valid, these are the same too. -/
def Obligations.EagerAndLazyBuildsAgree : Prop :=
  ∀ (i : Instr) (s t : State), StateInv s → exec i s = .next t →
    ∃ u : State, runAll (Instr.tblgen ++ [i]) s = .next u ∧ SameButTables t u ∧
      u.engine.sv = true ∧ u.engine.rv = true ∧
      (t.engine.sv = true → u.engine.sbox = t.engine.sbox ∧ u.engine.isbox = t.engine.isbox) ∧
      (t.engine.rv = true → u.engine.rcon = t.engine.rcon)

/-- R43, U2: storage that is unspecified after reset is unobservable until written: from two states that differ
only in storage hidden by the gates, a step gives the same answer and again two such states. `KV = 1` implies
`SV = 1` by the invariant (`StateInv.schedule`). -/
def Obligations.HiddenStorageIsUnobservable : Prop :=
  ∀ s t s' : State, SameView s t → (s.engine.kv = true → s.engine.sv = true) → step s = .next s' →
    ∃ t', step t = .next t' ∧ SameView s' t'

end
end

