-- ==== Sys2Proof/Laws/GfEngine.lean ====
section
/-! SUPPORT. The field engine: `multiply` is additive in each operand and associative, and `inverse` is a chain of
13 products; both run on naturals, which the kernel evaluates quickly. -/

namespace Sys2Proof.Machine

/-- The loop of R111 is additive in `b`. -/
theorem multiplyLoop_xor_right (n : Nat) (a b d x y : Byte) :
    multiplyLoop n a (b ^^^ d) (x ^^^ y) = multiplyLoop n a b x ^^^ multiplyLoop n a d y := by
  induction n generalizing a b d x y with
  | zero => rfl
  | succ n ih =>
    have e : (if (b ^^^ d)[0] then (x ^^^ y) ^^^ a else x ^^^ y) =
        (if b[0] then x ^^^ a else x) ^^^ (if d[0] then y ^^^ a else y) := by
      rw [BitVec.getElem_xor]
      cases b[0] <;> cases d[0] <;> simp <;> ac_nf
      simp [← BitVec.xor_assoc a a]
    simp only [multiplyLoop]
    rw [e, BitVec.ushiftRight_xor_distrib, ih]

/-- The loop of R111 is additive in `a`. -/
theorem multiplyLoop_xor_left (n : Nat) (a b d x y : Byte) :
    multiplyLoop n (a ^^^ b) d (x ^^^ y) = multiplyLoop n a d x ^^^ multiplyLoop n b d y := by
  induction n generalizing a b d x y with
  | zero => rfl
  | succ n ih =>
    have e : (if (a ^^^ b)[7] then ((a ^^^ b) <<< 1) ^^^ Config.red else (a ^^^ b) <<< 1) =
        (if a[7] then (a <<< 1) ^^^ Config.red else a <<< 1) ^^^
          (if b[7] then (b <<< 1) ^^^ Config.red else b <<< 1) := by
      rw [BitVec.getElem_xor, BitVec.shiftLeft_xor_distrib]
      cases a[7] <;> cases b[7] <;> simp <;> ac_nf
      simp [← BitVec.xor_assoc Config.red Config.red]
    have e' : (if d[0] then (x ^^^ y) ^^^ (a ^^^ b) else x ^^^ y) =
        (if d[0] then x ^^^ a else x) ^^^ (if d[0] then y ^^^ b else y) := by
      cases d[0] <;> simp; ac_rfl
    simp only [multiplyLoop]
    rw [e, e', ih]

/-- `multiply` distributes over XOR on the right. -/
theorem multiply_xor_right (a b d : Byte) : multiply a (b ^^^ d) = multiply a b ^^^ multiply a d := by
  simpa [multiply] using multiplyLoop_xor_right 8 a b d 0#8 0#8

/-- `multiply` distributes over XOR on the left. -/
theorem multiply_xor_left (a b d : Byte) : multiply (a ^^^ b) d = multiply a d ^^^ multiply b d := by
  simpa [multiply] using multiplyLoop_xor_left 8 a b d 0#8 0#8

/-- Every byte is the XOR of its one-bit bytes. -/
theorem byte_eq_xor_bits : ∀ a : Byte,
    (List.finRange 8).foldr (fun i acc => (if a.getLsbD i.val then 1#8 <<< i.val else 0#8) ^^^ acc) 0#8 = a := by
  decide +kernel

/-- Two additive functions on bytes that agree on the eight one-bit bytes are equal. -/
theorem additive_ext {f g : Byte → Byte} (hf : ∀ a b, f (a ^^^ b) = f a ^^^ f b)
    (hg : ∀ a b, g (a ^^^ b) = g a ^^^ g b) (h : ∀ i : Fin 8, f (1#8 <<< i.val) = g (1#8 <<< i.val)) (a : Byte) :
    f a = g a := by
  have f0 : f 0#8 = 0#8 := by simpa using hf 0#8 0#8
  have g0 : g 0#8 = 0#8 := by simpa using hg 0#8 0#8
  have p : ∀ l : List (Fin 8),
      f (l.foldr (fun i acc => (if a.getLsbD i.val then 1#8 <<< i.val else 0#8) ^^^ acc) 0#8) =
      g (l.foldr (fun i acc => (if a.getLsbD i.val then 1#8 <<< i.val else 0#8) ^^^ acc) 0#8) := by
    intro l
    induction l with
    | nil => rw [List.foldr_nil, f0, g0]
    | cons i l ih =>
      rw [List.foldr_cons, hf, hg, ih]
      cases a.getLsbD i.val <;> simp [f0, g0, h i]
  have := p (List.finRange 8)
  rwa [byte_eq_xor_bits a] at this

/-- Associativity on one-bit bytes. -/
theorem multiply_assoc_bits : ∀ i j k : Fin 8,
    multiply (multiply (1#8 <<< i.val) (1#8 <<< j.val)) (1#8 <<< k.val) =
      multiply (1#8 <<< i.val) (multiply (1#8 <<< j.val) (1#8 <<< k.val)) := by
  decide +kernel

/-- `multiply` is associative. -/
theorem multiply_assoc (a b d : Byte) : multiply (multiply a b) d = multiply a (multiply b d) := by
  refine additive_ext (f := fun a => multiply (multiply a b) d) (g := fun a => multiply a (multiply b d))
    (by intros; simp only [multiply_xor_left]) (by intros; simp only [multiply_xor_left]) (fun i => ?_) a
  refine additive_ext (f := fun b => multiply (multiply (1#8 <<< i.val) b) d)
    (g := fun b => multiply (1#8 <<< i.val) (multiply b d))
    (by intros; simp only [multiply_xor_left, multiply_xor_right])
    (by intros; simp only [multiply_xor_left, multiply_xor_right]) (fun j => ?_) b
  exact additive_ext (f := fun d => multiply (multiply (1#8 <<< i.val) (1#8 <<< j.val)) d)
    (g := fun d => multiply (1#8 <<< i.val) (multiply (1#8 <<< j.val) d))
    (by intros; simp only [multiply_xor_right]) (by intros; simp only [multiply_xor_right])
    (fun k => multiply_assoc_bits i j k) d

/-- `m + n` factors are `m` factors, then `n` more. -/
theorem powerLoop_add (a r : Byte) (m n : Nat) : powerLoop a (m + n) r = powerLoop a n (powerLoop a m r) := by
  induction m generalizing r with
  | zero => simp [powerLoop]
  | succ m ih => rw [Nat.succ_add, powerLoop, powerLoop, ih]

/-- A starting value of the power loop is a factor of its result. -/
theorem powerLoop_eq_multiply (a r x : Byte) (n : Nat) :
    powerLoop a n (multiply r x) = multiply r (powerLoop a n x) := by
  induction n generalizing x with
  | zero => rfl
  | succ n ih => rw [powerLoop, powerLoop, multiply_assoc, ih]

/-- The identity on the right. -/
theorem multiply_one (a : Byte) : multiply a 1#8 = a :=
  additive_ext (f := fun a => multiply a 1#8) (g := id) (by simp [multiply_xor_left]) (by simp) (by decide) a

/-- The identity on the left. -/
theorem one_multiply (a : Byte) : multiply 1#8 a = a :=
  additive_ext (f := multiply 1#8) (g := id) (by simp [multiply_xor_right]) (by simp) (by decide) a

/-- Doubling the exponent squares the power. -/
theorem powerLoop_double (a : Byte) (n : Nat) :
    powerLoop a (n + n) 1#8 = multiply (powerLoop a n 1#8) (powerLoop a n 1#8) := by
  rw [powerLoop_add, ← powerLoop_eq_multiply, multiply_one]

/-- `inverse` by repeated squaring, `254 = 127 + 127` and so on down: 13 products in place of 254. -/
theorem inverse_eq_squares (a : Byte) :
    inverse a =
      (let sq := fun r => multiply (multiply r r) a
       let r := sq (sq (sq (sq (sq (sq a)))))
       multiply r r) := by
  have h1 : powerLoop a 1 1#8 = a := one_multiply a
  have up : ∀ n, powerLoop a (n + n + 1) 1#8 = multiply (multiply (powerLoop a n 1#8) (powerLoop a n 1#8)) a := by
    intro n
    rw [powerLoop_add, powerLoop_double]
    rfl
  show powerLoop a (127 + 127) 1#8 = _
  rw [powerLoop_double, show (127 : Nat) = 63 + 63 + 1 from rfl, up, show (63 : Nat) = 31 + 31 + 1 from rfl, up,
    show (31 : Nat) = 15 + 15 + 1 from rfl, up, show (15 : Nat) = 7 + 7 + 1 from rfl, up,
    show (7 : Nat) = 3 + 3 + 1 from rfl, up, show (3 : Nat) = 1 + 1 + 1 from rfl, up, h1]


/-- The loop of R111 on naturals, for evaluation by the kernel: `0x11B` takes off the carry and `0x1B` together. -/
def multiplyNat (n : Nat) : Nat → Nat → Nat → Nat :=
  Nat.rec (motive := fun _ => Nat → Nat → Nat → Nat) (fun _ _ acc => acc)
    (fun _ more a b acc =>
      more (Nat.xor (Nat.mul a 2) (Nat.mul (Nat.div a 128) 283)) (Nat.div b 2) (Nat.xor acc (Nat.mul a (Nat.mod b 2)))) n

/-- Doubling with reduction, on naturals. -/
theorem double_toNat : ∀ a : Byte, (if a[7] then (a <<< 1) ^^^ Config.red else a <<< 1).toNat =
    Nat.xor (Nat.mul a.toNat 2) (Nat.mul (Nat.div a.toNat 128) 283) := by
  decide +kernel

/-- The conditional accumulation, on naturals. -/
theorem accumulate_toNat (a b acc : Byte) : (if b[0] then acc ^^^ a else acc).toNat =
    Nat.xor acc.toNat (Nat.mul a.toNat (Nat.mod b.toNat 2)) := by
  have hb : b[0] = decide (b.toNat % 2 = 1) := by
    rw [← BitVec.getLsbD_eq_getElem, BitVec.getLsbD, Nat.testBit_zero]
  show _ = acc.toNat ^^^ (a.toNat * (b.toNat % 2))
  rw [hb]
  rcases Nat.mod_two_eq_zero_or_one b.toNat with h | h <;> simp [h]

/-- The two loops agree. -/
theorem multiplyLoop_toNat (n : Nat) (a b acc : Byte) :
    (multiplyLoop n a b acc).toNat = multiplyNat n a.toNat b.toNat acc.toNat := by
  induction n generalizing a b acc with
  | zero => rfl
  | succ n ih =>
    rw [multiplyLoop, ih, double_toNat, accumulate_toNat, BitVec.toNat_ushiftRight, Nat.shiftRight_eq_div_pow]
    rfl

/-- `multiply` on naturals. -/
theorem multiply_toNat (a b : Byte) : (multiply a b).toNat = multiplyNat 8 a.toNat b.toNat 0 :=
  multiplyLoop_toNat 8 a b 0#8

/-- One squaring and one product by `a`, on naturals. -/
def squareTimesNat (a r : Nat) : Nat := multiplyNat 8 (multiplyNat 8 r r 0) a 0

/-- `inverse` on naturals. -/
def inverseNat (a : Nat) : Nat :=
  (fun r => multiplyNat 8 r r 0)
    (squareTimesNat a (squareTimesNat a (squareTimesNat a (squareTimesNat a (squareTimesNat a (squareTimesNat a a))))))

/-- `inverse` evaluates as `inverseNat`. -/
theorem inverse_eq_inverseNat (a : Byte) : inverse a = BitVec.ofNat 8 (inverseNat a.toNat) := by
  have h : (inverse a).toNat = inverseNat a.toNat := by
    rw [inverse_eq_squares]
    simp only [multiply_toNat, inverseNat, squareTimesNat]
  rw [← h, BitVec.ofNat_toNat, BitVec.setWidth_eq]

end Sys2Proof.Machine
end

