-- ==== Sys2Proof/Laws/State.lean ====
section
/-! SUPPORT. One lemma per field per update of the state, each true by `rfl`, so that no later proof unfolds a
record update. -/

namespace Sys2Proof.Machine

variable (s : State)

@[simp] theorem setCtByte_opa (off : Nat) (v : Byte) : (s.setCtByte off v).engine.opa = s.engine.opa := rfl
@[simp] theorem setCtByte_opb (off : Nat) (v : Byte) : (s.setCtByte off v).engine.opb = s.engine.opb := rfl
@[simp] theorem setCtByte_res (off : Nat) (v : Byte) : (s.setCtByte off v).engine.res = s.engine.res := rfl
@[simp] theorem setCtByte_sv (off : Nat) (v : Byte) : (s.setCtByte off v).engine.sv = s.engine.sv := rfl
@[simp] theorem setCtByte_rv (off : Nat) (v : Byte) : (s.setCtByte off v).engine.rv = s.engine.rv := rfl
@[simp] theorem setCtByte_kv (off : Nat) (v : Byte) : (s.setCtByte off v).engine.kv = s.engine.kv := rfl
@[simp] theorem setCtByte_err (off : Nat) (v : Byte) : (s.setCtByte off v).engine.err = s.engine.err := rfl
@[simp] theorem setCtByte_klen (off : Nat) (v : Byte) : (s.setCtByte off v).engine.klen = s.engine.klen := rfl
@[simp] theorem setCtByte_clen (off : Nat) (v : Byte) : (s.setCtByte off v).engine.clen = s.engine.clen := rfl
@[simp] theorem setCtByte_plen (off : Nat) (v : Byte) : (s.setCtByte off v).engine.plen = s.engine.plen := rfl
@[simp] theorem setCtByte_key (off : Nat) (v : Byte) : (s.setCtByte off v).engine.key = s.engine.key := rfl
@[simp] theorem setCtByte_st (off : Nat) (v : Byte) : (s.setCtByte off v).engine.st = s.engine.st := rfl
@[simp] theorem setCtByte_ks (off : Nat) (v : Byte) : (s.setCtByte off v).engine.ks = s.engine.ks := rfl
@[simp] theorem setCtByte_sbox (off : Nat) (v : Byte) : (s.setCtByte off v).engine.sbox = s.engine.sbox := rfl
@[simp] theorem setCtByte_isbox (off : Nat) (v : Byte) : (s.setCtByte off v).engine.isbox = s.engine.isbox := rfl
@[simp] theorem setCtByte_rcon (off : Nat) (v : Byte) : (s.setCtByte off v).engine.rcon = s.engine.rcon := rfl
@[simp] theorem setCtByte_ct (off : Nat) (v : Byte) : (s.setCtByte off v).engine.ct = s.engine.ct.write off v := rfl
@[simp] theorem setCtByte_pt (off : Nat) (v : Byte) : (s.setCtByte off v).engine.pt = s.engine.pt := rfl
@[simp] theorem setCtByte_dcap (off : Nat) (v : Byte) : (s.setCtByte off v).dcap = s.dcap := rfl
@[simp] theorem setCtByte_resets (off : Nat) (v : Byte) : (s.setCtByte off v).resets = s.resets := rfl
@[simp] theorem setCtByte_pending (off : Nat) (v : Byte) : (s.setCtByte off v).pending = s.pending := rfl
@[simp] theorem setCtByte_reply (off : Nat) (v : Byte) : (s.setCtByte off v).reply = s.reply := rfl

@[simp] theorem setPtByte_opa (off : Nat) (v : Byte) : (s.setPtByte off v).engine.opa = s.engine.opa := rfl
@[simp] theorem setPtByte_opb (off : Nat) (v : Byte) : (s.setPtByte off v).engine.opb = s.engine.opb := rfl
@[simp] theorem setPtByte_res (off : Nat) (v : Byte) : (s.setPtByte off v).engine.res = s.engine.res := rfl
@[simp] theorem setPtByte_sv (off : Nat) (v : Byte) : (s.setPtByte off v).engine.sv = s.engine.sv := rfl
@[simp] theorem setPtByte_rv (off : Nat) (v : Byte) : (s.setPtByte off v).engine.rv = s.engine.rv := rfl
@[simp] theorem setPtByte_kv (off : Nat) (v : Byte) : (s.setPtByte off v).engine.kv = s.engine.kv := rfl
@[simp] theorem setPtByte_err (off : Nat) (v : Byte) : (s.setPtByte off v).engine.err = s.engine.err := rfl
@[simp] theorem setPtByte_klen (off : Nat) (v : Byte) : (s.setPtByte off v).engine.klen = s.engine.klen := rfl
@[simp] theorem setPtByte_clen (off : Nat) (v : Byte) : (s.setPtByte off v).engine.clen = s.engine.clen := rfl
@[simp] theorem setPtByte_plen (off : Nat) (v : Byte) : (s.setPtByte off v).engine.plen = s.engine.plen := rfl
@[simp] theorem setPtByte_key (off : Nat) (v : Byte) : (s.setPtByte off v).engine.key = s.engine.key := rfl
@[simp] theorem setPtByte_st (off : Nat) (v : Byte) : (s.setPtByte off v).engine.st = s.engine.st := rfl
@[simp] theorem setPtByte_ks (off : Nat) (v : Byte) : (s.setPtByte off v).engine.ks = s.engine.ks := rfl
@[simp] theorem setPtByte_sbox (off : Nat) (v : Byte) : (s.setPtByte off v).engine.sbox = s.engine.sbox := rfl
@[simp] theorem setPtByte_isbox (off : Nat) (v : Byte) : (s.setPtByte off v).engine.isbox = s.engine.isbox := rfl
@[simp] theorem setPtByte_rcon (off : Nat) (v : Byte) : (s.setPtByte off v).engine.rcon = s.engine.rcon := rfl
@[simp] theorem setPtByte_ct (off : Nat) (v : Byte) : (s.setPtByte off v).engine.ct = s.engine.ct := rfl
@[simp] theorem setPtByte_pt (off : Nat) (v : Byte) : (s.setPtByte off v).engine.pt = s.engine.pt.write off v := rfl
@[simp] theorem setPtByte_dcap (off : Nat) (v : Byte) : (s.setPtByte off v).dcap = s.dcap := rfl
@[simp] theorem setPtByte_resets (off : Nat) (v : Byte) : (s.setPtByte off v).resets = s.resets := rfl
@[simp] theorem setPtByte_pending (off : Nat) (v : Byte) : (s.setPtByte off v).pending = s.pending := rfl
@[simp] theorem setPtByte_reply (off : Nat) (v : Byte) : (s.setPtByte off v).reply = s.reply := rfl

@[simp] theorem setRes_opa (v : Word) : (s.setRes v).engine.opa = s.engine.opa := rfl
@[simp] theorem setRes_opb (v : Word) : (s.setRes v).engine.opb = s.engine.opb := rfl
@[simp] theorem setRes_res (v : Word) : (s.setRes v).engine.res = v := rfl
@[simp] theorem setRes_sv (v : Word) : (s.setRes v).engine.sv = s.engine.sv := rfl
@[simp] theorem setRes_rv (v : Word) : (s.setRes v).engine.rv = s.engine.rv := rfl
@[simp] theorem setRes_kv (v : Word) : (s.setRes v).engine.kv = s.engine.kv := rfl
@[simp] theorem setRes_err (v : Word) : (s.setRes v).engine.err = s.engine.err := rfl
@[simp] theorem setRes_klen (v : Word) : (s.setRes v).engine.klen = s.engine.klen := rfl
@[simp] theorem setRes_clen (v : Word) : (s.setRes v).engine.clen = s.engine.clen := rfl
@[simp] theorem setRes_plen (v : Word) : (s.setRes v).engine.plen = s.engine.plen := rfl
@[simp] theorem setRes_key (v : Word) : (s.setRes v).engine.key = s.engine.key := rfl
@[simp] theorem setRes_st (v : Word) : (s.setRes v).engine.st = s.engine.st := rfl
@[simp] theorem setRes_ks (v : Word) : (s.setRes v).engine.ks = s.engine.ks := rfl
@[simp] theorem setRes_sbox (v : Word) : (s.setRes v).engine.sbox = s.engine.sbox := rfl
@[simp] theorem setRes_isbox (v : Word) : (s.setRes v).engine.isbox = s.engine.isbox := rfl
@[simp] theorem setRes_rcon (v : Word) : (s.setRes v).engine.rcon = s.engine.rcon := rfl
@[simp] theorem setRes_ct (v : Word) : (s.setRes v).engine.ct = s.engine.ct := rfl
@[simp] theorem setRes_pt (v : Word) : (s.setRes v).engine.pt = s.engine.pt := rfl
@[simp] theorem setRes_dcap (v : Word) : (s.setRes v).dcap = s.dcap := rfl
@[simp] theorem setRes_resets (v : Word) : (s.setRes v).resets = s.resets := rfl
@[simp] theorem setRes_pending (v : Word) : (s.setRes v).pending = s.pending := rfl
@[simp] theorem setRes_reply (v : Word) : (s.setRes v).reply = s.reply := rfl

@[simp] theorem setSt_opa (v : Block) : (s.setSt v).engine.opa = s.engine.opa := rfl
@[simp] theorem setSt_opb (v : Block) : (s.setSt v).engine.opb = s.engine.opb := rfl
@[simp] theorem setSt_res (v : Block) : (s.setSt v).engine.res = s.engine.res := rfl
@[simp] theorem setSt_sv (v : Block) : (s.setSt v).engine.sv = s.engine.sv := rfl
@[simp] theorem setSt_rv (v : Block) : (s.setSt v).engine.rv = s.engine.rv := rfl
@[simp] theorem setSt_kv (v : Block) : (s.setSt v).engine.kv = s.engine.kv := rfl
@[simp] theorem setSt_err (v : Block) : (s.setSt v).engine.err = s.engine.err := rfl
@[simp] theorem setSt_klen (v : Block) : (s.setSt v).engine.klen = s.engine.klen := rfl
@[simp] theorem setSt_clen (v : Block) : (s.setSt v).engine.clen = s.engine.clen := rfl
@[simp] theorem setSt_plen (v : Block) : (s.setSt v).engine.plen = s.engine.plen := rfl
@[simp] theorem setSt_key (v : Block) : (s.setSt v).engine.key = s.engine.key := rfl
@[simp] theorem setSt_st (v : Block) : (s.setSt v).engine.st = v := rfl
@[simp] theorem setSt_ks (v : Block) : (s.setSt v).engine.ks = s.engine.ks := rfl
@[simp] theorem setSt_sbox (v : Block) : (s.setSt v).engine.sbox = s.engine.sbox := rfl
@[simp] theorem setSt_isbox (v : Block) : (s.setSt v).engine.isbox = s.engine.isbox := rfl
@[simp] theorem setSt_rcon (v : Block) : (s.setSt v).engine.rcon = s.engine.rcon := rfl
@[simp] theorem setSt_ct (v : Block) : (s.setSt v).engine.ct = s.engine.ct := rfl
@[simp] theorem setSt_pt (v : Block) : (s.setSt v).engine.pt = s.engine.pt := rfl
@[simp] theorem setSt_dcap (v : Block) : (s.setSt v).dcap = s.dcap := rfl
@[simp] theorem setSt_resets (v : Block) : (s.setSt v).resets = s.resets := rfl
@[simp] theorem setSt_pending (v : Block) : (s.setSt v).pending = s.pending := rfl
@[simp] theorem setSt_reply (v : Block) : (s.setSt v).reply = s.reply := rfl

@[simp] theorem setKs_opa (v : Schedule) : (s.setKs v).engine.opa = s.engine.opa := rfl
@[simp] theorem setKs_opb (v : Schedule) : (s.setKs v).engine.opb = s.engine.opb := rfl
@[simp] theorem setKs_res (v : Schedule) : (s.setKs v).engine.res = s.engine.res := rfl
@[simp] theorem setKs_sv (v : Schedule) : (s.setKs v).engine.sv = s.engine.sv := rfl
@[simp] theorem setKs_rv (v : Schedule) : (s.setKs v).engine.rv = s.engine.rv := rfl
@[simp] theorem setKs_kv (v : Schedule) : (s.setKs v).engine.kv = s.engine.kv := rfl
@[simp] theorem setKs_err (v : Schedule) : (s.setKs v).engine.err = s.engine.err := rfl
@[simp] theorem setKs_klen (v : Schedule) : (s.setKs v).engine.klen = s.engine.klen := rfl
@[simp] theorem setKs_clen (v : Schedule) : (s.setKs v).engine.clen = s.engine.clen := rfl
@[simp] theorem setKs_plen (v : Schedule) : (s.setKs v).engine.plen = s.engine.plen := rfl
@[simp] theorem setKs_key (v : Schedule) : (s.setKs v).engine.key = s.engine.key := rfl
@[simp] theorem setKs_st (v : Schedule) : (s.setKs v).engine.st = s.engine.st := rfl
@[simp] theorem setKs_ks (v : Schedule) : (s.setKs v).engine.ks = v := rfl
@[simp] theorem setKs_sbox (v : Schedule) : (s.setKs v).engine.sbox = s.engine.sbox := rfl
@[simp] theorem setKs_isbox (v : Schedule) : (s.setKs v).engine.isbox = s.engine.isbox := rfl
@[simp] theorem setKs_rcon (v : Schedule) : (s.setKs v).engine.rcon = s.engine.rcon := rfl
@[simp] theorem setKs_ct (v : Schedule) : (s.setKs v).engine.ct = s.engine.ct := rfl
@[simp] theorem setKs_pt (v : Schedule) : (s.setKs v).engine.pt = s.engine.pt := rfl
@[simp] theorem setKs_dcap (v : Schedule) : (s.setKs v).dcap = s.dcap := rfl
@[simp] theorem setKs_resets (v : Schedule) : (s.setKs v).resets = s.resets := rfl
@[simp] theorem setKs_pending (v : Schedule) : (s.setKs v).pending = s.pending := rfl
@[simp] theorem setKs_reply (v : Schedule) : (s.setKs v).reply = s.reply := rfl

@[simp] theorem setTables_opa (v : Table × Table) : (s.setTables v).engine.opa = s.engine.opa := rfl
@[simp] theorem setTables_opb (v : Table × Table) : (s.setTables v).engine.opb = s.engine.opb := rfl
@[simp] theorem setTables_res (v : Table × Table) : (s.setTables v).engine.res = s.engine.res := rfl
@[simp] theorem setTables_sv (v : Table × Table) : (s.setTables v).engine.sv = s.engine.sv := rfl
@[simp] theorem setTables_rv (v : Table × Table) : (s.setTables v).engine.rv = s.engine.rv := rfl
@[simp] theorem setTables_kv (v : Table × Table) : (s.setTables v).engine.kv = s.engine.kv := rfl
@[simp] theorem setTables_err (v : Table × Table) : (s.setTables v).engine.err = s.engine.err := rfl
@[simp] theorem setTables_klen (v : Table × Table) : (s.setTables v).engine.klen = s.engine.klen := rfl
@[simp] theorem setTables_clen (v : Table × Table) : (s.setTables v).engine.clen = s.engine.clen := rfl
@[simp] theorem setTables_plen (v : Table × Table) : (s.setTables v).engine.plen = s.engine.plen := rfl
@[simp] theorem setTables_key (v : Table × Table) : (s.setTables v).engine.key = s.engine.key := rfl
@[simp] theorem setTables_st (v : Table × Table) : (s.setTables v).engine.st = s.engine.st := rfl
@[simp] theorem setTables_ks (v : Table × Table) : (s.setTables v).engine.ks = s.engine.ks := rfl
@[simp] theorem setTables_sbox (v : Table × Table) : (s.setTables v).engine.sbox = v.1 := rfl
@[simp] theorem setTables_isbox (v : Table × Table) : (s.setTables v).engine.isbox = v.2 := rfl
@[simp] theorem setTables_rcon (v : Table × Table) : (s.setTables v).engine.rcon = s.engine.rcon := rfl
@[simp] theorem setTables_ct (v : Table × Table) : (s.setTables v).engine.ct = s.engine.ct := rfl
@[simp] theorem setTables_pt (v : Table × Table) : (s.setTables v).engine.pt = s.engine.pt := rfl
@[simp] theorem setTables_dcap (v : Table × Table) : (s.setTables v).dcap = s.dcap := rfl
@[simp] theorem setTables_resets (v : Table × Table) : (s.setTables v).resets = s.resets := rfl
@[simp] theorem setTables_pending (v : Table × Table) : (s.setTables v).pending = s.pending := rfl
@[simp] theorem setTables_reply (v : Table × Table) : (s.setTables v).reply = s.reply := rfl

@[simp] theorem setRcon_opa (v : RconTable) : (s.setRcon v).engine.opa = s.engine.opa := rfl
@[simp] theorem setRcon_opb (v : RconTable) : (s.setRcon v).engine.opb = s.engine.opb := rfl
@[simp] theorem setRcon_res (v : RconTable) : (s.setRcon v).engine.res = s.engine.res := rfl
@[simp] theorem setRcon_sv (v : RconTable) : (s.setRcon v).engine.sv = s.engine.sv := rfl
@[simp] theorem setRcon_rv (v : RconTable) : (s.setRcon v).engine.rv = s.engine.rv := rfl
@[simp] theorem setRcon_kv (v : RconTable) : (s.setRcon v).engine.kv = s.engine.kv := rfl
@[simp] theorem setRcon_err (v : RconTable) : (s.setRcon v).engine.err = s.engine.err := rfl
@[simp] theorem setRcon_klen (v : RconTable) : (s.setRcon v).engine.klen = s.engine.klen := rfl
@[simp] theorem setRcon_clen (v : RconTable) : (s.setRcon v).engine.clen = s.engine.clen := rfl
@[simp] theorem setRcon_plen (v : RconTable) : (s.setRcon v).engine.plen = s.engine.plen := rfl
@[simp] theorem setRcon_key (v : RconTable) : (s.setRcon v).engine.key = s.engine.key := rfl
@[simp] theorem setRcon_st (v : RconTable) : (s.setRcon v).engine.st = s.engine.st := rfl
@[simp] theorem setRcon_ks (v : RconTable) : (s.setRcon v).engine.ks = s.engine.ks := rfl
@[simp] theorem setRcon_sbox (v : RconTable) : (s.setRcon v).engine.sbox = s.engine.sbox := rfl
@[simp] theorem setRcon_isbox (v : RconTable) : (s.setRcon v).engine.isbox = s.engine.isbox := rfl
@[simp] theorem setRcon_rcon (v : RconTable) : (s.setRcon v).engine.rcon = v := rfl
@[simp] theorem setRcon_ct (v : RconTable) : (s.setRcon v).engine.ct = s.engine.ct := rfl
@[simp] theorem setRcon_pt (v : RconTable) : (s.setRcon v).engine.pt = s.engine.pt := rfl
@[simp] theorem setRcon_dcap (v : RconTable) : (s.setRcon v).dcap = s.dcap := rfl
@[simp] theorem setRcon_resets (v : RconTable) : (s.setRcon v).resets = s.resets := rfl
@[simp] theorem setRcon_pending (v : RconTable) : (s.setRcon v).pending = s.pending := rfl
@[simp] theorem setRcon_reply (v : RconTable) : (s.setRcon v).reply = s.reply := rfl

@[simp] theorem setPlen_opa (v : Word) : (s.setPlen v).engine.opa = s.engine.opa := rfl
@[simp] theorem setPlen_opb (v : Word) : (s.setPlen v).engine.opb = s.engine.opb := rfl
@[simp] theorem setPlen_res (v : Word) : (s.setPlen v).engine.res = s.engine.res := rfl
@[simp] theorem setPlen_sv (v : Word) : (s.setPlen v).engine.sv = s.engine.sv := rfl
@[simp] theorem setPlen_rv (v : Word) : (s.setPlen v).engine.rv = s.engine.rv := rfl
@[simp] theorem setPlen_kv (v : Word) : (s.setPlen v).engine.kv = s.engine.kv := rfl
@[simp] theorem setPlen_err (v : Word) : (s.setPlen v).engine.err = s.engine.err := rfl
@[simp] theorem setPlen_klen (v : Word) : (s.setPlen v).engine.klen = s.engine.klen := rfl
@[simp] theorem setPlen_clen (v : Word) : (s.setPlen v).engine.clen = s.engine.clen := rfl
@[simp] theorem setPlen_plen (v : Word) : (s.setPlen v).engine.plen = v := rfl
@[simp] theorem setPlen_key (v : Word) : (s.setPlen v).engine.key = s.engine.key := rfl
@[simp] theorem setPlen_st (v : Word) : (s.setPlen v).engine.st = s.engine.st := rfl
@[simp] theorem setPlen_ks (v : Word) : (s.setPlen v).engine.ks = s.engine.ks := rfl
@[simp] theorem setPlen_sbox (v : Word) : (s.setPlen v).engine.sbox = s.engine.sbox := rfl
@[simp] theorem setPlen_isbox (v : Word) : (s.setPlen v).engine.isbox = s.engine.isbox := rfl
@[simp] theorem setPlen_rcon (v : Word) : (s.setPlen v).engine.rcon = s.engine.rcon := rfl
@[simp] theorem setPlen_ct (v : Word) : (s.setPlen v).engine.ct = s.engine.ct := rfl
@[simp] theorem setPlen_pt (v : Word) : (s.setPlen v).engine.pt = s.engine.pt := rfl
@[simp] theorem setPlen_dcap (v : Word) : (s.setPlen v).dcap = s.dcap := rfl
@[simp] theorem setPlen_resets (v : Word) : (s.setPlen v).resets = s.resets := rfl
@[simp] theorem setPlen_pending (v : Word) : (s.setPlen v).pending = s.pending := rfl
@[simp] theorem setPlen_reply (v : Word) : (s.setPlen v).reply = s.reply := rfl

@[simp] theorem setSv_opa : (s.setSv).engine.opa = s.engine.opa := rfl
@[simp] theorem setSv_opb : (s.setSv).engine.opb = s.engine.opb := rfl
@[simp] theorem setSv_res : (s.setSv).engine.res = s.engine.res := rfl
@[simp] theorem setSv_sv : (s.setSv).engine.sv = true := rfl
@[simp] theorem setSv_rv : (s.setSv).engine.rv = s.engine.rv := rfl
@[simp] theorem setSv_kv : (s.setSv).engine.kv = s.engine.kv := rfl
@[simp] theorem setSv_err : (s.setSv).engine.err = s.engine.err := rfl
@[simp] theorem setSv_klen : (s.setSv).engine.klen = s.engine.klen := rfl
@[simp] theorem setSv_clen : (s.setSv).engine.clen = s.engine.clen := rfl
@[simp] theorem setSv_plen : (s.setSv).engine.plen = s.engine.plen := rfl
@[simp] theorem setSv_key : (s.setSv).engine.key = s.engine.key := rfl
@[simp] theorem setSv_st : (s.setSv).engine.st = s.engine.st := rfl
@[simp] theorem setSv_ks : (s.setSv).engine.ks = s.engine.ks := rfl
@[simp] theorem setSv_sbox : (s.setSv).engine.sbox = s.engine.sbox := rfl
@[simp] theorem setSv_isbox : (s.setSv).engine.isbox = s.engine.isbox := rfl
@[simp] theorem setSv_rcon : (s.setSv).engine.rcon = s.engine.rcon := rfl
@[simp] theorem setSv_ct : (s.setSv).engine.ct = s.engine.ct := rfl
@[simp] theorem setSv_pt : (s.setSv).engine.pt = s.engine.pt := rfl
@[simp] theorem setSv_dcap : (s.setSv).dcap = s.dcap := rfl
@[simp] theorem setSv_resets : (s.setSv).resets = s.resets := rfl
@[simp] theorem setSv_pending : (s.setSv).pending = s.pending := rfl
@[simp] theorem setSv_reply : (s.setSv).reply = s.reply := rfl

@[simp] theorem setRv_opa : (s.setRv).engine.opa = s.engine.opa := rfl
@[simp] theorem setRv_opb : (s.setRv).engine.opb = s.engine.opb := rfl
@[simp] theorem setRv_res : (s.setRv).engine.res = s.engine.res := rfl
@[simp] theorem setRv_sv : (s.setRv).engine.sv = s.engine.sv := rfl
@[simp] theorem setRv_rv : (s.setRv).engine.rv = true := rfl
@[simp] theorem setRv_kv : (s.setRv).engine.kv = s.engine.kv := rfl
@[simp] theorem setRv_err : (s.setRv).engine.err = s.engine.err := rfl
@[simp] theorem setRv_klen : (s.setRv).engine.klen = s.engine.klen := rfl
@[simp] theorem setRv_clen : (s.setRv).engine.clen = s.engine.clen := rfl
@[simp] theorem setRv_plen : (s.setRv).engine.plen = s.engine.plen := rfl
@[simp] theorem setRv_key : (s.setRv).engine.key = s.engine.key := rfl
@[simp] theorem setRv_st : (s.setRv).engine.st = s.engine.st := rfl
@[simp] theorem setRv_ks : (s.setRv).engine.ks = s.engine.ks := rfl
@[simp] theorem setRv_sbox : (s.setRv).engine.sbox = s.engine.sbox := rfl
@[simp] theorem setRv_isbox : (s.setRv).engine.isbox = s.engine.isbox := rfl
@[simp] theorem setRv_rcon : (s.setRv).engine.rcon = s.engine.rcon := rfl
@[simp] theorem setRv_ct : (s.setRv).engine.ct = s.engine.ct := rfl
@[simp] theorem setRv_pt : (s.setRv).engine.pt = s.engine.pt := rfl
@[simp] theorem setRv_dcap : (s.setRv).dcap = s.dcap := rfl
@[simp] theorem setRv_resets : (s.setRv).resets = s.resets := rfl
@[simp] theorem setRv_pending : (s.setRv).pending = s.pending := rfl
@[simp] theorem setRv_reply : (s.setRv).reply = s.reply := rfl

@[simp] theorem setKv_opa : (s.setKv).engine.opa = s.engine.opa := rfl
@[simp] theorem setKv_opb : (s.setKv).engine.opb = s.engine.opb := rfl
@[simp] theorem setKv_res : (s.setKv).engine.res = s.engine.res := rfl
@[simp] theorem setKv_sv : (s.setKv).engine.sv = s.engine.sv := rfl
@[simp] theorem setKv_rv : (s.setKv).engine.rv = s.engine.rv := rfl
@[simp] theorem setKv_kv : (s.setKv).engine.kv = true := rfl
@[simp] theorem setKv_err : (s.setKv).engine.err = s.engine.err := rfl
@[simp] theorem setKv_klen : (s.setKv).engine.klen = s.engine.klen := rfl
@[simp] theorem setKv_clen : (s.setKv).engine.clen = s.engine.clen := rfl
@[simp] theorem setKv_plen : (s.setKv).engine.plen = s.engine.plen := rfl
@[simp] theorem setKv_key : (s.setKv).engine.key = s.engine.key := rfl
@[simp] theorem setKv_st : (s.setKv).engine.st = s.engine.st := rfl
@[simp] theorem setKv_ks : (s.setKv).engine.ks = s.engine.ks := rfl
@[simp] theorem setKv_sbox : (s.setKv).engine.sbox = s.engine.sbox := rfl
@[simp] theorem setKv_isbox : (s.setKv).engine.isbox = s.engine.isbox := rfl
@[simp] theorem setKv_rcon : (s.setKv).engine.rcon = s.engine.rcon := rfl
@[simp] theorem setKv_ct : (s.setKv).engine.ct = s.engine.ct := rfl
@[simp] theorem setKv_pt : (s.setKv).engine.pt = s.engine.pt := rfl
@[simp] theorem setKv_dcap : (s.setKv).dcap = s.dcap := rfl
@[simp] theorem setKv_resets : (s.setKv).resets = s.resets := rfl
@[simp] theorem setKv_pending : (s.setKv).pending = s.pending := rfl
@[simp] theorem setKv_reply : (s.setKv).reply = s.reply := rfl

@[simp] theorem succeed_opa : (s.succeed).engine.opa = s.engine.opa := rfl
@[simp] theorem succeed_opb : (s.succeed).engine.opb = s.engine.opb := rfl
@[simp] theorem succeed_res : (s.succeed).engine.res = s.engine.res := rfl
@[simp] theorem succeed_sv : (s.succeed).engine.sv = s.engine.sv := rfl
@[simp] theorem succeed_rv : (s.succeed).engine.rv = s.engine.rv := rfl
@[simp] theorem succeed_kv : (s.succeed).engine.kv = s.engine.kv := rfl
@[simp] theorem succeed_err : (s.succeed).engine.err = .ok := rfl
@[simp] theorem succeed_klen : (s.succeed).engine.klen = s.engine.klen := rfl
@[simp] theorem succeed_clen : (s.succeed).engine.clen = s.engine.clen := rfl
@[simp] theorem succeed_plen : (s.succeed).engine.plen = s.engine.plen := rfl
@[simp] theorem succeed_key : (s.succeed).engine.key = s.engine.key := rfl
@[simp] theorem succeed_st : (s.succeed).engine.st = s.engine.st := rfl
@[simp] theorem succeed_ks : (s.succeed).engine.ks = s.engine.ks := rfl
@[simp] theorem succeed_sbox : (s.succeed).engine.sbox = s.engine.sbox := rfl
@[simp] theorem succeed_isbox : (s.succeed).engine.isbox = s.engine.isbox := rfl
@[simp] theorem succeed_rcon : (s.succeed).engine.rcon = s.engine.rcon := rfl
@[simp] theorem succeed_ct : (s.succeed).engine.ct = s.engine.ct := rfl
@[simp] theorem succeed_pt : (s.succeed).engine.pt = s.engine.pt := rfl
@[simp] theorem succeed_dcap : (s.succeed).dcap = s.dcap := rfl
@[simp] theorem succeed_resets : (s.succeed).resets = s.resets := rfl
@[simp] theorem succeed_pending : (s.succeed).pending = s.pending := rfl
@[simp] theorem succeed_reply : (s.succeed).reply = s.reply := rfl

@[simp] theorem fail_opa (c : ResultCode) : (s.fail c).engine.opa = s.engine.opa := rfl
@[simp] theorem fail_opb (c : ResultCode) : (s.fail c).engine.opb = s.engine.opb := rfl
@[simp] theorem fail_res (c : ResultCode) : (s.fail c).engine.res = s.engine.res := rfl
@[simp] theorem fail_sv (c : ResultCode) : (s.fail c).engine.sv = s.engine.sv := rfl
@[simp] theorem fail_rv (c : ResultCode) : (s.fail c).engine.rv = s.engine.rv := rfl
@[simp] theorem fail_kv (c : ResultCode) : (s.fail c).engine.kv = s.engine.kv := rfl
@[simp] theorem fail_err (c : ResultCode) : (s.fail c).engine.err = c := rfl
@[simp] theorem fail_klen (c : ResultCode) : (s.fail c).engine.klen = s.engine.klen := rfl
@[simp] theorem fail_clen (c : ResultCode) : (s.fail c).engine.clen = s.engine.clen := rfl
@[simp] theorem fail_plen (c : ResultCode) : (s.fail c).engine.plen = s.engine.plen := rfl
@[simp] theorem fail_key (c : ResultCode) : (s.fail c).engine.key = s.engine.key := rfl
@[simp] theorem fail_st (c : ResultCode) : (s.fail c).engine.st = s.engine.st := rfl
@[simp] theorem fail_ks (c : ResultCode) : (s.fail c).engine.ks = s.engine.ks := rfl
@[simp] theorem fail_sbox (c : ResultCode) : (s.fail c).engine.sbox = s.engine.sbox := rfl
@[simp] theorem fail_isbox (c : ResultCode) : (s.fail c).engine.isbox = s.engine.isbox := rfl
@[simp] theorem fail_rcon (c : ResultCode) : (s.fail c).engine.rcon = s.engine.rcon := rfl
@[simp] theorem fail_ct (c : ResultCode) : (s.fail c).engine.ct = s.engine.ct := rfl
@[simp] theorem fail_pt (c : ResultCode) : (s.fail c).engine.pt = s.engine.pt := rfl
@[simp] theorem fail_dcap (c : ResultCode) : (s.fail c).dcap = s.dcap := rfl
@[simp] theorem fail_resets (c : ResultCode) : (s.fail c).resets = s.resets := rfl
@[simp] theorem fail_pending (c : ResultCode) : (s.fail c).pending = s.pending := rfl
@[simp] theorem fail_reply (c : ResultCode) : (s.fail c).reply = s.reply := rfl

@[simp] theorem afterReset_engine : s.afterReset.engine = Engine.reset := rfl
@[simp] theorem afterReset_dcap : s.afterReset.dcap = s.dcap := rfl
@[simp] theorem afterReset_resets : s.afterReset.resets = s.resets + 1 := rfl
@[simp] theorem afterReset_pending : s.afterReset.pending = s.pending := rfl
@[simp] theorem afterReset_reply : s.afterReset.reply = none := rfl

end Sys2Proof.Machine
end

