-- ==== Sys2Proof/Laws/Memory.lean ====
section
/-! SUPPORT. The laws of the byte buffers: read after write, and that every operation keeps the canonical form. -/

namespace Sys2Proof.Machine

@[simp] theorem Memory.read_nil (a : Nat) : Memory.read [] a = none := rfl

@[simp] theorem Memory.wf_nil : Memory.wf [] = true := rfl

@[simp] theorem Memory.below_nil (n : Nat) : Memory.below [] n = true := rfl

@[simp] theorem Memory.read_write_same (m : Memory) (a : Nat) (v : Byte) : (m.write a v).read a = some v := by
  induction m with
  | nil => simp [Memory.write, Memory.read]
  | cons c m ih =>
    obtain ⟨b, w⟩ := c
    simp only [Memory.write]
    split
    · simp [Memory.read]
    · split
      · simp [Memory.read]
      · rename_i h
        simp [Memory.read, h, ih]

theorem Memory.read_write_other (m : Memory) {a b : Nat} (v : Byte) (h : b ≠ a) :
    (m.write a v).read b = m.read b := by
  induction m with
  | nil => simp [Memory.write, Memory.read, h]
  | cons c m ih =>
    obtain ⟨d, w⟩ := c
    simp only [Memory.write]
    split
    · simp [Memory.read, h]
    · split
      · rename_i had
        subst had
        simp [Memory.read, h]
      · simp [Memory.read, ih]

/-- One lemma for both cases of a read after a write. -/
theorem Memory.read_write (m : Memory) (a b : Nat) (v : Byte) :
    (m.write a v).read b = if b = a then some v else m.read b := by
  split
  · subst_vars
    exact m.read_write_same _ v
  · exact m.read_write_other v ‹_›

/-- Every address of a written memory above a bound that all old addresses and the new one exceed. -/
theorem Memory.wf_cons_write (c : Host.Cell) (m : Memory) (a : Nat) (v : Byte) (hc : c.1 < a)
    (hm : Memory.wf (c :: m) = true) : Memory.wf (c :: m.write a v) = true := by
  induction m generalizing c with
  | nil => simp [Memory.write, Memory.wf, hc]
  | cons d m ih =>
    obtain ⟨b, w⟩ := d
    simp only [Memory.wf, Bool.and_eq_true, decide_eq_true_eq] at hm
    obtain ⟨hcb, hm⟩ := hm
    simp only [Memory.write]
    split
    · rename_i hab
      simp [Memory.wf, hc, hab, hm]
    · split
      · rename_i hab
        subst hab
        cases m with
        | nil => simp [Memory.wf, hc]
        | cons e m =>
          simp only [Memory.wf, Bool.and_eq_true, decide_eq_true_eq] at hm ⊢
          exact ⟨hc, hm⟩
      · have hba : b < a := by omega
        have := ih (b, w) hba hm
        simp only [Memory.wf, Bool.and_eq_true, decide_eq_true_eq]
        exact ⟨hcb, this⟩

/-- A write keeps the canonical form. -/
theorem Memory.wf_write (m : Memory) (a : Nat) (v : Byte) (hm : m.wf = true) : (m.write a v).wf = true := by
  cases m with
  | nil => rfl
  | cons c m =>
    obtain ⟨b, w⟩ := c
    simp only [Memory.write]
    split
    · rename_i hab
      simp [Memory.wf, hab, hm]
    · split
      · rename_i hab
        subst hab
        cases m with
        | nil => rfl
        | cons d m => simpa [Memory.wf] using hm
      · exact Memory.wf_cons_write (b, w) m a v (by simp only; omega) hm

/-- A write below a bound keeps all addresses below it. -/
theorem Memory.below_write (m : Memory) (a n : Nat) (v : Byte) (ha : a < n) (hm : m.below n = true) :
    (m.write a v).below n = true := by
  induction m with
  | nil => simp [Memory.write, Memory.below, ha]
  | cons c m ih =>
    obtain ⟨b, w⟩ := c
    simp only [Memory.below, List.all_cons, Bool.and_eq_true, decide_eq_true_eq] at hm ih ⊢
    simp only [Memory.write]
    split
    · simp [ha, hm]
    · split
      · simp [ha, hm]
      · simp only [List.all_cons, Bool.and_eq_true, decide_eq_true_eq]
        exact ⟨hm.1, ih hm.2⟩

/-- Reset memory has the canonical form. -/
theorem reset_buffers_wf : State.reset.engine.ct.wf = true ∧ State.reset.engine.pt.wf = true := ⟨rfl, rfl⟩

/-- Reading CT after a store to it. -/
theorem ctByte_setCtByte (s : State) (a off : Nat) (v : Byte) :
    (s.setCtByte a v).ctByte off = if off = a then v else s.ctByte off := by
  simp only [State.ctByte, setCtByte_ct, setCtByte_resets, Memory.read_write]
  split <;> rfl

/-- Reading PT after a store to it. -/
theorem ptByte_setPtByte (s : State) (a off : Nat) (v : Byte) :
    (s.setPtByte a v).ptByte off = if off = a then v else s.ptByte off := by
  simp only [State.ptByte, setPtByte_pt, setPtByte_resets, Memory.read_write]
  split <;> rfl

/-- CT's bytes are a function of its list and the reset counter only. -/
theorem ctByte_congr {s t : State} (hc : t.engine.ct = s.engine.ct) (hr : t.resets = s.resets) (off : Nat) :
    t.ctByte off = s.ctByte off := by
  simp [State.ctByte, hc, hr]

/-- PT's bytes are a function of its list and the reset counter only. -/
theorem ptByte_congr {s t : State} (hp : t.engine.pt = s.engine.pt) (hr : t.resets = s.resets) (off : Nat) :
    t.ptByte off = s.ptByte off := by
  simp [State.ptByte, hp, hr]

end Sys2Proof.Machine
end

