-- ==== Sys2Proof/Laws/Ops.lean ====
section
/-! SUPPORT. For each shared operation, one lemma that says everything it can do; later proofs cite these and do
not unfold the operation. -/

namespace Sys2Proof.Machine

variable (s : State)

/-- The lazy S-box build (42_sbox_generator.md R133): nothing while `SV = 1`, else the build and `SV <- 1`. -/
theorem ensureSbox_cases :
    (s.engine.sv = true ∧ s.ensureSbox = s) ∨ (s.engine.sv = false ∧ s.ensureSbox = s.buildSbox.setSv) := by
  cases h : s.engine.sv <;> simp [State.ensureSbox, h]

/-- What the lazy S-box build may change. -/
theorem ensureSbox_frame :
    s.ensureSbox = { s with engine := { s.engine with sbox := s.ensureSbox.engine.sbox,
                                                      isbox := s.ensureSbox.engine.isbox, sv := true } } := by
  obtain ⟨h, e⟩ | ⟨h, e⟩ := ensureSbox_cases s
  · rw [e, ← h]
  · rw [e]
    simp only [State.setSv, State.buildSbox, State.setTables]

/-- The lazy RCON build (43_key_schedule.md R153). -/
theorem ensureRcon_cases :
    (s.engine.rv = true ∧ s.ensureRcon = s) ∨ (s.engine.rv = false ∧ s.ensureRcon = s.buildRcon.setRv) := by
  cases h : s.engine.rv <;> simp [State.ensureRcon, h]

/-- What the lazy RCON build may change. -/
theorem ensureRcon_frame :
    s.ensureRcon = { s with engine := { s.engine with rcon := s.ensureRcon.engine.rcon, rv := true } } := by
  obtain ⟨h, e⟩ | ⟨h, e⟩ := ensureRcon_cases s
  · rw [e, ← h]
  · rw [e]; rfl

/-- The tables after the expansion's lazy builds are those the two builds leave. -/
theorem expandSchedule_spec :
    s.expandSchedule =
      { s with engine := { s.engine with
          sbox := s.ensureSbox.engine.sbox, isbox := s.ensureSbox.engine.isbox, sv := true,
          rcon := s.ensureRcon.engine.rcon, rv := true,
          ks := expandKey s.ensureSbox.engine.sbox s.ensureRcon.engine.rcon s.engine.key, kv := true } } := by
  obtain ⟨h, e⟩ | ⟨h, e⟩ := ensureSbox_cases s <;> obtain ⟨h', e'⟩ | ⟨h', e'⟩ := ensureRcon_cases s <;>
    simp [State.expandSchedule, State.ensureSbox, State.ensureRcon, State.buildSbox, State.buildRcon, State.setTables,
      State.setRcon, State.setSv, State.setRv, State.setKs, State.setKv, h, h']

/-- The stores of some bytes of a block to PT, one after the other. -/
theorem foldl_setPtByte (k : Nat) (b : Block) (l : List (Fin 16)) (s : State) :
    (l.foldl (fun s j => s.setPtByte (16 * k + j.val) b[j]) s =
      { s with engine := { s.engine with
          pt := (l.foldl (fun s j => s.setPtByte (16 * k + j.val) b[j]) s).engine.pt } }) ∧
    ∀ off, (l.foldl (fun s j => s.setPtByte (16 * k + j.val) b[j]) s).ptByte off =
      if h : off - 16 * k < 16 then
        if 16 * k ≤ off ∧ ⟨off - 16 * k, h⟩ ∈ l then b[off - 16 * k] else s.ptByte off
      else s.ptByte off := by
  induction l generalizing s with
  | nil => simp
  | cons j l ih =>
    obtain ⟨hf, hr⟩ := ih (s.setPtByte (16 * k + j.val) b[j])
    refine ⟨?_, fun off => ?_⟩
    · simpa [State.setPtByte] using hf
    · simp only [List.foldl_cons, hr, ptByte_setPtByte, List.mem_cons]
      by_cases h : off - 16 * k < 16
      · simp only [h, dif_pos]
        by_cases hk : 16 * k ≤ off
        · by_cases hj : off = 16 * k + j.val
          · subst hj
            simp
          · have : (⟨off - 16 * k, h⟩ : Fin 16) ≠ j := by
              intro e
              apply hj
              have := congrArg Fin.val e
              simp only at this
              omega
            simp [hk, hj, this]
        · have hj : off ≠ 16 * k + j.val := by omega
          simp [hk, hj]
      · have hj : off ≠ 16 * k + j.val := by have := j.isLt; omega
        simp [h, hj]

/-- Storing a block to PT changes PT alone. -/
theorem setPtBlock_frame (k : Nat) (b : Block) :
    s.setPtBlock k b = { s with engine := { s.engine with pt := (s.setPtBlock k b).engine.pt } } :=
  (foldl_setPtByte k b _ s).1

/-- Storing a block to PT: its sixteen bytes, and every other byte as before (45_ecb_driver.md R202). -/
theorem ptByte_setPtBlock (k : Nat) (b : Block) (off : Nat) :
    (s.setPtBlock k b).ptByte off =
      if h : off - 16 * k < 16 then (if 16 * k ≤ off then b[off - 16 * k] else s.ptByte off) else s.ptByte off := by
  have h := (foldl_setPtByte k b (List.finRange 16) s).2 off
  simp only [List.mem_finRange, and_true] at h
  exact h

/-- One pass of the block loop changes ST and PT alone. -/
theorem ecbBlock_frame (k : Nat) :
    s.ecbBlock k = { s with engine := { s.engine with
      st := decryptBlock s.engine.isbox s.engine.ks (s.ctBlock k), pt := (s.ecbBlock k).engine.pt } } := by
  unfold State.ecbBlock
  rw [setPtBlock_frame]
  rfl

/-- One more block: the loop runs in ascending order. -/
theorem ecbBlocks_succ (n : Nat) : s.ecbBlocks (n + 1) = (s.ecbBlocks n).ecbBlock n := by
  simp [State.ecbBlocks, List.range_succ]

@[simp] theorem ecbBlocks_zero : s.ecbBlocks 0 = s := rfl

/-- The block loop changes ST and PT alone. -/
theorem ecbBlocks_frame (n : Nat) :
    s.ecbBlocks n = { s with engine := { s.engine with st := (s.ecbBlocks n).engine.st,
                                                       pt := (s.ecbBlocks n).engine.pt } } := by
  induction n with
  | zero => rfl
  | succ n ih =>
    rw [ecbBlocks_succ, ecbBlock_frame, ih]

/-- KEYEXP's two outcomes (43_key_schedule.md R155). -/
theorem execKeyexp_cases :
    (s.engine.klen ≠ 16#32 ∧ execKeyexp s = .next (s.fail .invalidKeySize)) ∨
    (s.engine.klen = 16#32 ∧ execKeyexp s = .next s.expandSchedule.succeed) := by
  by_cases h : s.engine.klen = 16#32 <;> simp [execKeyexp, Config.keyLength, h]

/-- ARK's three outcomes (44_inverse_cipher.md R172). -/
theorem execArk_cases (rnd : BitVec 4) :
    (10 < rnd.toNat ∧ execArk rnd s = .next (s.fail .illegalCommand)) ∨
    (∃ h : rnd.toNat ≤ 10, s.engine.kv = true ∧ execArk rnd s =
      .next (s.setSt (addRoundKey s.engine.st s.engine.ks ⟨rnd.toNat, by omega⟩)).succeed) ∨
    (rnd.toNat ≤ 10 ∧ s.engine.kv = false ∧ execArk rnd s = .next (s.fail .scheduleNotValid)) := by
  by_cases h : rnd.toNat ≤ 10
  · cases hk : s.engine.kv <;> simp [execArk, h, hk]
  · simp [execArk, h]
    omega

/-- DECBLK's two outcomes (R180). -/
theorem execDecblk_cases :
    (s.engine.kv = true ∧ execDecblk s =
      .next (s.setSt (decryptBlock s.engine.isbox s.engine.ks s.engine.st)).succeed) ∨
    (s.engine.kv = false ∧ execDecblk s = .next (s.fail .scheduleNotValid)) := by
  cases hk : s.engine.kv <;> simp [execDecblk, hk]

/-- ECBDEC's four outcomes (45_ecb_driver.md R203). -/
theorem execEcbdec_cases :
    (s.engine.klen ≠ 16#32 ∧ execEcbdec s = .next (s.fail .invalidKeySize)) ∨
    (s.engine.klen = 16#32 ∧ s.engine.clen.toNat % 16 ≠ 0 ∧ execEcbdec s = .next (s.fail .invalidBlockLength)) ∨
    (s.engine.klen = 16#32 ∧ s.engine.clen.toNat % 16 = 0 ∧ s.dcap < s.engine.clen.toNat ∧
      execEcbdec s = .next (s.fail .lengthOverCapacity)) ∨
    (s.engine.klen = 16#32 ∧ s.engine.clen.toNat % 16 = 0 ∧ s.engine.clen.toNat ≤ s.dcap ∧ execEcbdec s =
      .next ((s.expandSchedule.ecbBlocks (s.engine.clen.toNat / 16)).setPlen s.engine.clen).succeed) := by
  by_cases h1 : s.engine.klen = 16#32
  · by_cases h2 : s.engine.clen.toNat % 16 = 0
    · by_cases h3 : s.dcap < s.engine.clen.toNat
      · simp [execEcbdec, Config.keyLength, h1, h2, h3]
      · have h4 : s.engine.clen.toNat ≤ s.dcap := by omega
        simp [execEcbdec, Config.keyLength, h1, h2, h3, h4]
    · simp [execEcbdec, Config.keyLength, h1, h2]
  · simp [execEcbdec, Config.keyLength, h1]

end Sys2Proof.Machine
end

