-- ==== Sys2Proof/Laws/PerInstr.lean ====
section
/-! SUPPORT. The family `EncodingShape`, one lemma per command: every command word carries the command's opcode in
bits 7:0 and zeros in the format's zero field (30_encoding.md R91). -/

namespace Sys2Proof.Laws.EncodingShape

/-- The fields of an encoded command, for every operand value. -/
def Statement (i : Instr) : Prop :=
  opcodeField (encode i) = i.opcode ∧ zeroFieldR (encode i) = 0#20 ∧
    (i.opcode ≠ 0x30#8 → zeroFieldN (encode i) = 0#24)

theorem gfmul : Statement .gfmul := by unfold Statement; decide
theorem gfinv : Statement .gfinv := by unfold Statement; decide
theorem sbgen : Statement .sbgen := by unfold Statement; decide
theorem subw : Statement .subw := by unfold Statement; decide
theorem isubw : Statement .isubw := by unfold Statement; decide
theorem rcgen : Statement .rcgen := by unfold Statement; decide
theorem keyexp : Statement .keyexp := by unfold Statement; decide
theorem ark (rnd : BitVec 4) : Statement (.ark rnd) := by
  unfold Statement
  revert rnd
  decide
theorem ishr : Statement .ishr := by unfold Statement; decide
theorem isubb : Statement .isubb := by unfold Statement; decide
theorem imixc : Statement .imixc := by unfold Statement; decide
theorem decblk : Statement .decblk := by unfold Statement; decide
theorem ecbdec : Statement .ecbdec := by unfold Statement; decide

end Sys2Proof.Laws.EncodingShape
end

