-- ==== Sys2Proof/Laws/Port.lean ====
section
/-! SUPPORT. What the host port and one step can do, said once. -/

namespace Sys2Proof.Machine

/-- An access is allowed exactly when the region exists, the range fits, and width and alignment are the
region's (20_memory.md R63, R64). -/
theorem checkAccess_ok_iff (dcap id off : Nat) (n : Width) (r : Region) :
    checkAccess dcap id off n = .ok r ↔
      regionOf id = some r ∧ off + n.bytes ≤ Region.size dcap r ∧ n = r.unit ∧ off % n.bytes = 0 := by
  unfold checkAccess
  cases h : regionOf id with
  | none => simp
  | some q =>
    simp only [Option.some.injEq]
    split
    · simp only [reduceCtorEq, false_iff, not_and]
      rintro rfl
      omega
    · split
      · simp only [reduceCtorEq, false_iff, not_and]
        rintro rfl
        intro _ hn
        simp_all
      · simp only [Except.ok.injEq]
        constructor
        · rintro rfl
          rename_i h1 h2
          simp only [not_or, not_not] at h2
          exact ⟨rfl, by omega, h2.1, h2.2⟩
        · exact fun h => h.1

/-- An allowed write, split by what it does (R65 (d)): a command, or a store that changes OPA, OPB, KLEN, CLEN, KEY,
ST or CT alone. -/
theorem writeLocation_cases (s : State) (r : Region) (off : Nat) (v : Value) :
    (∃ w, v = .word w ∧ r = .reg ∧ off = 0 ∧ writeLocation s r off v = .command w) ∨
    (∃ t, writeLocation s r off v = .stored t ∧
      t = { s with engine := { s.engine with opa := t.engine.opa, opb := t.engine.opb, klen := t.engine.klen,
                                             clen := t.engine.clen, key := t.engine.key, st := t.engine.st,
                                             ct := t.engine.ct } }) := by
  unfold writeLocation
  split
  · split
    · exact .inl ⟨_, rfl, rfl, ‹_›, rfl⟩
    · refine .inr ⟨_, rfl, ?_⟩
      unfold regWrite
      split <;> rfl
  · exact .inr ⟨_, rfl, rfl⟩
  · exact .inr ⟨_, rfl, rfl⟩
  · exact .inr ⟨_, rfl, rfl⟩
  · exact .inr ⟨_, rfl, rfl⟩

/-- A command write's next state is that of the decoded command, or the IllegalCommand failure (30_encoding.md R97). -/
theorem runCommand_cases (w : Word) (s : State) :
    (∃ i, decode w = .ok i ∧ runCommand w s = exec i s) ∨
    (∃ e, decode w = .error e ∧ runCommand w s = .next (s.fail .illegalCommand)) := by
  cases h : decode w <;> simp [runCommand, h]

/-- Everything a served event can be, when it gives a next state. -/
theorem serve_next_cases {ev : HostEvent} {s t : State} (h : serve ev s = .next t) :
    (ev = .reset ∧ t = s.afterReset) ∨
    (∃ id off n v, ev = .transaction (.read id off n) ∧ hostRead s id off n = .ok v ∧
      t = { s with reply := some (.value v) }) ∨
    (∃ id off v u, ev = .transaction (.write id off v) ∧ hostWrite s id off v = .ok (.stored u) ∧
      t = { u with reply := some .done }) ∨
    (∃ id off v w, ev = .transaction (.write id off v) ∧ hostWrite s id off v = .ok (.command w) ∧
      runCommand w { s with reply := some .done } = .next t) := by
  unfold serve at h
  split at h
  · exact .inl ⟨rfl, by injection h with h; exact h.symm⟩
  · split at h
    · exact .inr (.inl ⟨_, _, _, _, rfl, ‹_›, by injection h with h; exact h.symm⟩)
    · cases h
  · split at h
    · exact .inr (.inr (.inl ⟨_, _, _, _, rfl, ‹_›, by injection h with h; exact h.symm⟩))
    · exact .inr (.inr (.inr ⟨_, _, _, _, rfl, ‹_›, h⟩))
    · cases h

/-- A step serves the oldest event. -/
theorem step_cons {s : State} {ev : HostEvent} {rest : List HostEvent} (h : s.pending = ev :: rest) :
    step s = serve ev { s with pending := rest } := by
  simp [step, h]

/-- With no event waiting a step is idle. -/
theorem step_nil {s : State} (h : s.pending = []) : step s = .next s := by
  simp [step, h]

end Sys2Proof.Machine
end

