-- ==== Sys2Proof/Tests/Slice0.lean ====
section
/-! SUPPORT. Tests. Every expected value is one that spec/95_test_vectors.md or spec/96_test_vectors_cipher.md prints
(the vector is named at each test). The second part shows, for every obligation with hypotheses, a concrete state and
operands that meet them (`witness_<obligation>`). -/

namespace Sys2Proof.Machine.Tests

open Sys2Proof.Ref

/-! ## Building small states -/

/-- A block from its sixteen bytes in offset order, written as one numeral. -/
def blockOf (n : Nat) : Block := Vector.ofFn fun k : Fin 16 => BitVec.ofNat 8 (n >>> (8 * (15 - k.val)))

/-- A table from its 256 bytes in index order, written as one numeral. -/
def tableOf (n : Nat) : Table := Vector.ofFn fun k : Fin 256 => BitVec.ofNat 8 (n >>> (8 * (255 - k.val)))

/-- A schedule from its 44 words in index order, written as one numeral. -/
def scheduleOf (n : Nat) : Schedule := Vector.ofFn fun i : Fin 44 => BitVec.ofNat 32 (n >>> (32 * (43 - i.val)))

/-- A look-up in such a table. -/
theorem lookup_tableOf (n : Nat) (b : Byte) :
    lookup (tableOf n) b = BitVec.ofNat 8 (n >>> (8 * (255 - b.toNat))) := by
  simp [lookup, tableOf]

/-- V14, one numeral for the whole table. -/
def sboxDigits : Nat :=
  0x637c777bf26b6fc53001672bfed7ab76ca82c97dfa5947f0add4a2af9ca472c0b7fd9326363ff7cc34a5e5f171d8311504c723c31896059a071280e2eb27b27509832c1a1b6e5aa0523bd6b329e32f8453d100ed20fcb15b6acbbe394a4c58cfd0efaafb434d338545f9027f503c9fa851a3408f929d38f5bcb6da2110fff3d2cd0c13ec5f974417c4a77e3d645d197360814fdc222a908846eeb814de5e0bdbe0323a0a4906245cc2d3ac629195e479e7c8376d8dd54ea96c56f4ea657aae08ba78252e1ca6b4c6e8dd741f4bbd8b8a703eb5664803f60e613557b986c11d9ee1f8981169d98e949b1e87e9ce5528df8ca1890dbfe6426841992d0fb054bb16

/-- V15, one numeral for the whole table. -/
def isboxDigits : Nat :=
  0x52096ad53036a538bf40a39e81f3d7fb7ce339829b2fff87348e4344c4dee9cb547b9432a6c2233dee4c950b42fac34e082ea16628d924b2765ba2496d8bd12572f8f66486689816d4a45ccc5d65b6926c704850fdedb9da5e154657a78d9d8490d8ab008cbcd30af7e45805b8b34506d02c1e8fca3f0f02c1afbd0301138a6b3a9111414f67dcea97f2cfcef0b4e67396ac7422e7ad3585e2f937e81c75df6e47f11a711d29c5896fb7620eaa18be1bfc563e4bc6d279209adbc0fe78cd5af41fdda8338807c731b11210592780ec5f60517fa919b54a0d2de57a9f93c99cefa0e03b4dae2af5b0c8ebbb3c83539961172b047eba77d626e169146355210c7d

/-- The table SBOX of V14. -/
def sboxV14 : Table := tableOf sboxDigits

/-- The table ISBOX of V15. -/
def isboxV15 : Table := tableOf isboxDigits

/-- The table RCON of V17. -/
def rconV17 : RconTable := Vector.ofFn fun i : Fin 11 =>
  [0x00000000#32, 0x01000000#32, 0x02000000#32, 0x04000000#32, 0x08000000#32, 0x10000000#32,
    0x20000000#32, 0x40000000#32, 0x80000000#32, 0x1b000000#32, 0x36000000#32].getD i.val 0#32

/-- The first key of V19. -/
def keyV19 : Block := blockOf 0x000102030405060708090a0b0c0d0e0f

/-- The first schedule of V19. -/
def ksV19 : Schedule :=
  scheduleOf
    0x000102030405060708090a0b0c0d0e0fd6aa74fdd2af72fadaa678f1d6ab76feb692cf0b643dbdf1be9bc5006830b3feb6ff744ed2c2c9bf6c590cbf0469bf4147f7f7bc95353e03f96c32bcfd058dfd3caaa3e8a99f9deb50f3af57adf622aa5e390f7df7a69296a7553dc10aa31f6b14f9701ae35fe28c440adf4d4ea9c02647438735a41c65b9e016baf4aebf7ad2549932d1f08557681093ed9cbe2c974e13111d7fe3944a17f307a78b4d2b30c5

/-- The ciphertext block of V24. -/
def cipherV24 : Block := blockOf 0x69c4e0d86a7b0430d8cdb78070b4c55a

/-- The plaintext block of V24. -/
def plainV24 : Block := blockOf 0x00112233445566778899aabbccddeeff

/-- A buffer that holds a block's bytes from offset 0 on. -/
def bufferOf (b : Block) : Memory := (List.finRange 16).map fun k => (k.val, b[k])

/-- The reset state of the vectors, `DCAP = 64`. -/
def idle : State := { State.reset with dcap := 64 }

/-- The state that row 1 of V27 leaves: all three flags set, `PLEN = 16`. -/
def full : State :=
  { idle with engine := { Engine.reset with
      sv := true, rv := true, kv := true, sbox := sboxV14, isbox := isboxV15, rcon := rconV17, ks := ksV19,
      key := keyV19, klen := 16#32, clen := 16#32, plen := 16#32, st := plainV24,
      ct := bufferOf cipherV24, pt := bufferOf plainV24 } }

/-- A state with `OPA` and `OPB` set. -/
def withOperands (s : State) (a b : Word) : State := { s with engine := { s.engine with opa := a, opb := b } }

/-- A state with `ST` set. -/
def withSt (s : State) (b : Block) : State := { s with engine := { s.engine with st := b } }

/-- A state with `KLEN` and `CLEN` set. -/
def withLengths (s : State) (k c : Word) : State := { s with engine := { s.engine with klen := k, clen := c } }

/-- A state with one event waiting. -/
def sending (s : State) (ev : HostEvent) : State := { s with pending := [ev] }

/-- A field of the next state, if there is one. -/
def answered {a : Type} (f : State → a) : Host.Outcome State Fault Refusal → Option a
  | .next s => some (f s)
  | .fault _ => none
  | .refused _ => none

/-- The HostError's reason, if the outcome is one. -/
def hostErrorOf : Host.Outcome State Fault Refusal → Option HostErrorReason
  | .fault (.hostError r) => some r
  | .next _ => none
  | .refused _ => none

/-! ## WellFormed: the ill-formed terms are refused -/

/-- R92: rounds 11 to 15 have no command word. -/
theorem test_wf_refuses_rounds_above_ten :
    Instr.wf (.ark 11#4) = false ∧ Instr.wf (.ark 15#4) = false ∧ Instr.wf (.ark 10#4) = true := by decide

/-! ## Decoding: words written out from R91 and R93, as V30 lists them -/

/-- Component 1: opcode bytes 0x01, 0x02. -/
theorem test_decode_field_engine :
    decode 0b00000000_00000000_00000000_00000001#32 = .ok .gfmul ∧
    decode 0b00000000_00000000_00000000_00000010#32 = .ok .gfinv := by decide

/-- Component 2: opcode bytes 0x10 to 0x12. -/
theorem test_decode_sbox_generator :
    decode 0b00000000_00000000_00000000_00010000#32 = .ok .sbgen ∧
    decode 0b00000000_00000000_00000000_00010001#32 = .ok .subw ∧
    decode 0b00000000_00000000_00000000_00010010#32 = .ok .isubw := by decide

/-- Component 3: opcode bytes 0x20, 0x21. -/
theorem test_decode_key_schedule :
    decode 0b00000000_00000000_00000000_00100000#32 = .ok .rcgen ∧
    decode 0b00000000_00000000_00000000_00100001#32 = .ok .keyexp := by decide

/-- Component 4: ARK, with `rnd` in bits 11:8. -/
theorem test_decode_ark :
    decode 0b00000000_00000000_0000_0000_00110000#32 = .ok (.ark 0#4) ∧
    decode 0b00000000_00000000_0000_0001_00110000#32 = .ok (.ark 1#4) ∧
    decode 0b00000000_00000000_0000_1010_00110000#32 = .ok (.ark 10#4) := by decide

/-- Component 4: opcode bytes 0x31 to 0x34. -/
theorem test_decode_inverse_cipher :
    decode 0b00000000_00000000_00000000_00110001#32 = .ok .ishr ∧
    decode 0b00000000_00000000_00000000_00110010#32 = .ok .isubb ∧
    decode 0b00000000_00000000_00000000_00110011#32 = .ok .imixc ∧
    decode 0b00000000_00000000_00000000_00110100#32 = .ok .decblk := by decide

/-- Component 5: opcode byte 0x40. -/
theorem test_decode_ecb_driver : decode 0b00000000_00000000_00000000_01000000#32 = .ok .ecbdec := by decide

/-- V30's illegal words, and why each is illegal. -/
theorem test_decode_illegal_words :
    [0x00000b30#32, 0x00000f30#32].map decode = List.replicate 2 (.error .roundOutOfRange) ∧
    [0x00000000#32, 0x00000003#32, 0x00000013#32, 0x00000022#32, 0x00000035#32, 0x00000041#32, 0x000000ff#32].map
      decode = List.replicate 7 (.error .unknownOpcode) ∧
    [0x00000101#32, 0x00001031#32, 0x00010030#32, 0x80000001#32, 0x00000134#32, 0x00000a31#32, 0xffffffff#32,
      0x00001000#32].map decode = List.replicate 8 (.error .nonzeroZeroField) := by decide

/-- The table's numbering is that of the 32-bit word; nothing outside it decodes. -/
theorem test_decodeTableWord :
    decodeTableWord 32 0x00000a30 = some (.ark 10#4) ∧ decodeTableWord 32 0x00000b30 = none ∧
    decodeTableWord 8 0x34 = some .decblk ∧ decodeTableWord 64 0x100000034 = none := by decide

/-- Words of V20 and R172, from the encoder. -/
theorem test_encode : encode (.ark 10#4) = 0x00000a30#32 ∧ encode .ecbdec = 0x00000040#32 := by decide

/-! ## Component 1 -/

/-- V11, its last row: the upper 24 bits of both operands are ignored. -/
theorem test_gfmul :
    answered (fun t => t.engine.res) (exec .gfmul (withOperands idle 0xffffff57#32 0xabcdef83#32)) =
      some 0x000000c1#32 := by decide +kernel

/-- V12's last sentence. -/
theorem test_gfinv :
    answered (fun t => t.engine.res) (exec .gfinv (withOperands idle 0xffffff53#32 0#32)) = some 0x000000ca#32 := by
  decide +kernel

/-! ## Component 2 -/

/-- V14 is `affine(inverse(a))` at every byte: V12, V13 and R131 in one. -/
theorem test_sbox_entries :
    ∀ b : Byte, affine (inverse b) = BitVec.ofNat 8 (sboxDigits >>> (8 * (255 - b.toNat))) := by
  simp only [inverse_eq_inverseNat]
  decide +kernel

/-- V1: `ISBOX[SBOX[x]] = x` on V14 and V15. -/
theorem test_isbox_inverts_sbox : ∀ b : Byte, lookup isboxV15 (lookup sboxV14 b) = b := by
  unfold isboxV15 sboxV14
  simp only [lookup_tableOf]
  decide +kernel

/-- V14 and V15 are the tables of R131. -/
theorem sboxTables_V14_V15 : SboxTables sboxV14 isboxV15 :=
  ⟨fun a => by rw [test_sbox_entries, sboxV14, lookup_tableOf], test_isbox_inverts_sbox⟩

/-- R131 and V13: the pass for `a = 53` writes `SBOX[53] = ed` and `ISBOX[ed] = 53`. -/
theorem test_sbgen_pass :
    lookup (sboxStep (sboxV14, isboxV15) 0x53).1 0x53#8 = 0xed#8 ∧
    lookup (sboxStep (sboxV14, Vector.replicate 256 0#8) 0x53).2 0xed#8 = 0x53#8 := by decide +kernel

/-- R132: SBGEN sets SV and leaves `ERR = 0`. -/
theorem test_sbgen : answered (fun t => (t.engine.sv, t.engine.rv, t.engine.err)) (exec .sbgen idle) =
    some (true, false, .ok) := by rfl

/-- V16's fourth row. -/
theorem test_subw :
    answered (fun t => t.engine.res) (exec .subw (withOperands full 0x53ca00ff#32 0#32)) = some 0xed746316#32 := by
  show some (subword sboxV14 0x53ca00ff#32) = _
  simp only [sboxV14, subword, lookup_tableOf]
  decide +kernel

/-- V16's ninth row. -/
theorem test_isubw :
    answered (fun t => t.engine.res) (exec .isubw (withOperands full 0xed741052#32 0#32)) = some 0x53ca7c48#32 := by
  show some (subword isboxV15 0xed741052#32) = _
  simp only [isboxV15, subword, lookup_tableOf]
  decide +kernel

/-! ## Component 3 -/

/-- V17, from an array that held something else. -/
theorem test_rcgen :
    answered (fun t => (t.engine.rcon.toList, t.engine.rv))
      (exec .rcgen { idle with engine := { idle.engine with rcon := Vector.replicate 11 0x12345678#32 } }) =
      some (rconV17.toList, true) := by decide +kernel

/-- V19: the first key's schedule. -/
theorem test_expandKey : expandKey sboxV14 rconV17 keyV19 = ksV19 := by
  decide +kernel

/-- V28: KLEN = 268435472 (its low byte is 16) fails with code 1; nothing is expanded. -/
theorem test_keyexp_fails :
    answered (fun t => (t.engine.err, t.engine.kv)) (exec .keyexp (withLengths idle 268435472#32 16#32)) =
      some (.invalidKeySize, false) := by decide +kernel

/-! ## Component 4 -/

/-- V24, line `ARK 10`. -/
theorem test_ark :
    answered (fun t => t.engine.st) (exec (.ark 10#4) (withSt full cipherV24)) =
      some (blockOf 0x7ad5fda789ef4e272bca100b3d9ff59f) := by decide +kernel

/-- V20's text: with `KV = 0`, any ARK leaves ST unchanged and sets `ERR = 4`. -/
theorem test_ark_without_schedule :
    answered (fun t => (t.engine.st, t.engine.err.number)) (exec (.ark 0#4) (withSt idle cipherV24)) =
      some (cipherV24, 4#3) := by decide +kernel

/-- V21, first row. -/
theorem test_ishr :
    answered (fun t => t.engine.st) (exec .ishr (withSt idle keyV19)) =
      some (blockOf 0x000d0a0704010e0b0805020f0c090603) := by decide +kernel

/-- V22, fourth row. -/
theorem test_isubb :
    answered (fun t => t.engine.st) (exec .isubb (withSt full (blockOf 0x7a9f102789d5f50b2beffd9f3dca4ea7))) =
      some (blockOf 0xbd6e7c3df2b5779e0b61216e8b10b689) := by
  show some (invSubBytes isboxV15 (blockOf 0x7a9f102789d5f50b2beffd9f3dca4ea7)) = _
  simp only [isboxV15, invSubBytes, lookup_tableOf]
  decide +kernel

/-- V23, first row. -/
theorem test_imixc :
    answered (fun t => t.engine.st) (exec .imixc (withSt idle keyV19)) =
      some (blockOf 0x0a0f080d0e0b0c090207000506030401) := by decide +kernel

/-- V24: the whole decryption of the ciphertext block. -/
theorem test_decryptBlock : decryptBlock isboxV15 ksV19 cipherV24 = plainV24 := by
  unfold isboxV15 ksV19
  simp only [decryptBlock, middleRounds, List.foldl_cons, List.foldl_nil, middleRound, invSubBytes, lookup_tableOf,
    scheduleOf, addRoundKey, Vector.getElem_ofFn]
  decide +kernel

seal decryptBlock expandKey in
/-- V24: DECBLK. -/
theorem test_decblk :
    answered (fun t => (t.engine.st, t.engine.err)) (exec .decblk (withSt full cipherV24)) = some (plainV24, .ok) := by
  show some (decryptBlock isboxV15 ksV19 cipherV24, ResultCode.ok) = _
  rw [test_decryptBlock]

/-! ## Component 5 -/

/-- The expansion that ECBDEC runs on V27's state, KS as in V19. -/
theorem test_expandSchedule :
    (full.expandSchedule.engine.isbox, full.expandSchedule.engine.ks) = (isboxV15, ksV19) := by
  rw [expandSchedule_spec, ← test_expandKey]
  rfl

/-- What ECBDEC finds in CT on V27's first row. -/
theorem test_ctBlock : full.expandSchedule.ctBlock 0 = cipherV24 := by decide +kernel

seal decryptBlock State.expandSchedule in
/-- V27, first row: ECBDEC decrypts the block into ST and PT, and `PLEN <- 16`. -/
theorem test_ecbdec :
    exec .ecbdec full = .next (((full.expandSchedule.setSt plainV24).setPtBlock 0 plainV24).setPlen 16#32).succeed ∧
    ∀ j : Fin 16, (((full.expandSchedule.setSt plainV24).setPtBlock 0 plainV24).setPlen 16#32).succeed.ptByte j.val =
      plainV24[j] := by
  refine ⟨?_, by decide +kernel⟩
  obtain ⟨hi, hk⟩ := Prod.mk.inj test_expandSchedule
  show execEcbdec full = _
  unfold execEcbdec
  rw [if_neg (by decide), if_neg (by decide), if_neg (by decide), show full.engine.clen.toNat / 16 = 1 from rfl]
  show Host.Outcome.next ((State.ecbBlock full.expandSchedule 0).setPlen _).succeed = _
  simp only [State.ecbBlock]
  rw [test_ctBlock, hi, hk, test_decryptBlock]
  rfl

/-- V28, rows 3 and 7: the key check wins over the length check, and code 2 over code 3. -/
theorem test_ecbdec_priority :
    answered (fun t => (t.engine.err, t.engine.plen)) (exec .ecbdec (withLengths full 15#32 17#32)) =
      some (.invalidKeySize, 16#32) ∧
    answered (fun t => (t.engine.err, t.engine.plen)) (exec .ecbdec (withLengths full 16#32 72#32)) =
      some (.invalidBlockLength, 16#32) ∧
    answered (fun t => (t.engine.err, t.engine.plen)) (exec .ecbdec (withLengths full 16#32 4294967280#32)) =
      some (.lengthOverCapacity, 16#32) := by decide +kernel

/-! ## The host port -/

/-- A read. -/
def readEv (id off : Nat) (n : Width) : HostEvent := .transaction (.read id off n)

/-- A write. -/
def writeEv (id off : Nat) (v : Value) : HostEvent := .transaction (.write id off v)

/-- V29, rows 1 to 6. -/
theorem test_reads_from_reset :
    ([readEv 0 0x04 .word, readEv 0 0x24 .word, readEv 5 0x53 .byte, readEv 8 0x10 .word, readEv 4 0 .byte,
      readEv 0 0x00 .word].map fun ev => answered (fun t => t.reply) (step (sending idle ev))) =
    [some (some (.value (.word 0#32))), some (some (.value (.word 0x40#32))), some (some (.value (.byte 0#8))),
      some (some (.value (.word 0#32))), some (some (.value (.byte 0#8))), some (some (.value (.word 0#32)))] := by
  decide +kernel

/-- V29, rows 7 to 17: HostErrors, with the model's reason for each. -/
theorem test_host_errors :
    ([writeEv 0 0x04 (.word 1#32), writeEv 0 0x14 (.word 0#32), writeEv 0 0x28 (.word 0#32), readEv 0 0x0C .byte,
      readEv 0 0x0E .word, writeEv 1 0 (.word 0x2b7e1516#32), writeEv 1 16 (.byte 0#8), writeEv 5 0 (.byte 0#8),
      writeEv 4 0 (.byte 0#8), readEv 3 64 .byte, readEv 7 44 .word].map
      fun ev => hostErrorOf (step (sending idle ev))) =
    [some .readOnly, some .readOnly, some .beyondRegion, some .widthOrAlignment, some .widthOrAlignment,
      some .widthOrAlignment, some .beyondRegion, some .readOnly, some .readOnly, some .beyondRegion,
      some .beyondRegion] := by
  decide +kernel

/-- V29, rows 19, 20, 23 and 24, and P2's `RW KS[43]`: the gates are open. -/
theorem test_reads_of_valid_tables :
    ([readEv 5 0x53 .byte, readEv 6 0xed .byte, readEv 7 4 .word, readEv 7 40 .word, readEv 8 0xAC .word].map
      fun ev => answered (fun t => t.reply) (step (sending full ev))) =
    [some (some (.value (.byte 0xed#8))), some (some (.value (.byte 0x53#8))), some (some (.value (.word 0x01000000#32))),
      some (some (.value (.word 0x36000000#32))), some (some (.value (.word 0x4d2b30c5#32)))] := by
  decide +kernel

/-- V28, the word 00000b30: IllegalCommand, and the write is answered OK. -/
theorem test_illegal_word :
    answered (fun t => (t.engine.err, t.engine.plen, t.reply)) (step (sending full (writeEv 0 0x00 (.word 0x00000b30#32)))) =
      some (.illegalCommand, 16#32, some .done) := by decide +kernel

/-- V29, rows 26 to 28: `inverse(ef) = b3`, through withFetchWord. -/
theorem test_withFetchWord :
    answered (fun t => t.engine.res) (step ((withOperands idle 0xdeadbeef#32 0#32).withFetchWord 32 0x00000002)) =
      some 0x000000b3#32 := by decide +kernel

/-- P4's last line: `ISHR` on V24's plaintext, and a succeeding command clears ERR. -/
theorem test_success_clears_err :
    answered (fun t => (t.engine.st, t.engine.err))
      (exec .ishr { full with engine := { full.engine with err := .lengthOverCapacity } }) =
      some (blockOf 0x00ddaa774411eebb885522ffcc996633, .ok) := by decide +kernel

/-! ## Witnesses: for every obligation with hypotheses, states and operands that meet them -/

/-- The invariant holds of a state with every table valid and plaintext in PT. -/
theorem stateInv_full : StateInv full where
  tables := fun _ => sboxTables_V14_V15
  rcon := fun _ => by unfold RconValues; decide +kernel
  schedule := fun _ => ⟨rfl, rfl, keyV19, test_expandKey.symm⟩
  plenBlocks := by decide
  plenFits := by decide
  plenSchedule := fun _ => rfl
  capacity := by decide
  ctForm := by decide +kernel
  ptForm := by decide +kernel
  ptWritten := by
    have h : ∀ k : Fin 16, (full.engine.pt.read k.val).isSome = true := by decide +kernel
    exact fun off ho => h ⟨off, ho⟩

/-- The invariant holds of the reset state with the smaller capacity, where nothing is valid. -/
theorem stateInv_idle : StateInv idle where
  tables := nofun
  rcon := nofun
  schedule := nofun
  plenBlocks := by decide
  plenFits := by decide
  plenSchedule := fun h => absurd h (by decide)
  capacity := by decide
  ctForm := by decide
  ptForm := by decide
  ptWritten := fun off h => absurd h (Nat.not_lt_zero off)

/-- The invariant of the state with everything valid, with events waiting. -/
theorem stateInv_sending (ev : HostEvent) : StateInv (sending full ev) :=
  ⟨stateInv_full.1, stateInv_full.2, stateInv_full.3, stateInv_full.4, stateInv_full.5, stateInv_full.6,
    stateInv_full.7, stateInv_full.8, stateInv_full.9, stateInv_full.10⟩

/-- A CMD write of `ARK 10` waits. -/
theorem witness_StepRunsTheDecodedCommand :
    decode 0x00000a30#32 = .ok (.ark 10#4) ∧
    (sending full (writeEv 0 0x00 (.word 0x00000a30#32))).pending =
      .transaction (.write 0 0x00 (.word 0x00000a30#32)) :: [] := ⟨by decide, rfl⟩

/-- `ARK 11`: neither a format-N word nor a legal ARK word; nor is an ARK word with bit 12 set. -/
theorem witness_IllegalWordFailsWithCodeFive :
    (sending full (writeEv 0 0x00 (.word 0x00000b30#32))).pending =
      .transaction (.write 0 0x00 (.word 0x00000b30#32)) :: [] ∧
    ∀ w ∈ [0x00000b30#32, 0x00001030#32],
      (∀ n ∈ [0x01#32, 0x02#32, 0x10#32, 0x11#32, 0x12#32, 0x20#32, 0x21#32, 0x31#32, 0x32#32, 0x33#32, 0x34#32,
        0x40#32], w ≠ n) ∧
      ¬(w &&& 0xFFFFF0FF#32 = 0x30#32 ∧ (w.extractLsb' 8 4).toNat ≤ 10) := by
  simp [sending, writeEv]

/-- Idle, a reset and a transaction. -/
theorem witness_StepServesOneEventInOrder :
    (idle.pending = [] ∧ ∃ t, step idle = .next t) ∧
    ((sending full .reset).pending = .reset :: [] ∧ ∃ t, step (sending full .reset) = .next t) ∧
    ((sending full (readEv 0 0 .word)).pending = readEv 0 0 .word :: [] ∧ readEv 0 0 .word ≠ .reset ∧
      ∃ t, step (sending full (readEv 0 0 .word)) = .next t) :=
  ⟨⟨rfl, _, rfl⟩, ⟨rfl, _, rfl⟩, rfl, by decide, _, rfl⟩

/-- Both sides of every bound of R63 and R64, with `DCAP = 64`. -/
theorem witness_HostErrorExactlyWhenForbidden :
    (sending idle (readEv 3 64 .byte)).pending = readEv 3 64 .byte :: [] ∧
    (IllFormed 64 (readEv 9 0 .byte) ∧ IllFormed 64 (readEv 3 64 .byte) ∧ IllFormed 64 (readEv 7 44 .word) ∧
      IllFormed 64 (readEv 0 0x0E .word) ∧ IllFormed 64 (readEv 0 0x0C .byte) ∧ IllFormed 64 (readEv 1 0 .word) ∧
      IllFormed 64 (writeEv 0 0x24 (.word 0#32)) ∧ IllFormed 64 (writeEv 8 0 (.word 0#32))) ∧
    (¬IllFormed 64 (readEv 3 63 .byte) ∧ ¬IllFormed 64 (readEv 7 40 .word) ∧ ¬IllFormed 64 (readEv 8 172 .word) ∧
      ¬IllFormed 64 (readEv 0 0x24 .word) ∧ ¬IllFormed 64 (writeEv 0 0x00 (.word 0#32)) ∧
      ¬IllFormed 64 (writeEv 3 63 (.byte 0#8)) ∧ ¬IllFormed 64 .reset) := by
  simp [IllFormed, readEv, writeEv, BadAccess, ReadOnly, isWordRegion, regionSize, sending]

/-- One read of each location kind, at the last offset of its range; the event waits. -/
theorem witness_ReadAnswersStoredOrGatedValue :
    (∀ ev : HostEvent, (sending full ev).pending = ev :: []) ∧
    Reads full 0 0x00 .word (.word 0#32) ∧ Reads full 0 0x04 .word (.word 7#32) ∧
    Reads full 0 0x08 .word (.word 0#32) ∧ Reads full 0 0x0C .word (.word 0#32) ∧
    Reads full 0 0x10 .word (.word 0#32) ∧ Reads full 0 0x14 .word (.word 0#32) ∧
    Reads full 0 0x18 .word (.word 16#32) ∧ Reads full 0 0x1C .word (.word 16#32) ∧
    Reads full 0 0x20 .word (.word 16#32) ∧ Reads full 0 0x24 .word (.word 64#32) ∧
    (∃ v, Reads full 1 15 .byte v) ∧ (∃ v, Reads full 2 15 .byte v) ∧ (∃ v, Reads full 3 63 .byte v) ∧
    (∃ v, Reads full 4 15 .byte v) ∧ Reads full 4 16 .byte (.byte 0#8) ∧ Reads full 4 63 .byte (.byte 0#8) ∧
    (∃ v, Reads full 5 255 .byte v) ∧ Reads idle 5 255 .byte (.byte 0#8) ∧
    (∃ v, Reads full 6 255 .byte v) ∧ Reads idle 6 255 .byte (.byte 0#8) ∧
    (∃ v, Reads full 7 40 .word v) ∧ Reads idle 7 40 .word (.word 0#32) ∧
    (∃ v, Reads full 8 172 .word v) ∧ Reads idle 8 172 .word (.word 0#32) :=
  ⟨fun _ => rfl, .cmd, .status _ (by unfold IsStatus; decide), .err, .opa, .opb, .res, .klen, .clen, .plen, .cap,
    ⟨_, .key 15⟩, ⟨_, .st 15⟩, ⟨_, .ct 63 (by decide)⟩, ⟨_, .pt 15 (by decide) (by decide)⟩,
    .ptGated 16 (by decide) (by decide), .ptGated 63 (by decide) (by decide), ⟨_, .sbox 255 rfl⟩, .sboxGated 255 rfl,
    ⟨_, .isbox 255 rfl⟩, .isboxGated 255 rfl, ⟨_, .rcon 10 rfl⟩, .rconGated 10 rfl, ⟨_, .ks 43 rfl⟩, .ksGated 43 rfl⟩

/-- The write to `KEY[15]` of the next two witnesses, followed by a read of it. -/
def writeThenRead : State := { full with pending := [writeEv 1 15 (.byte 0xab#8), readEv 1 15 .byte] }

/-- One write to each location the host may write but CMD, at the last offset of its range; the event waits. -/
theorem witness_WriteStoresAndDoesNothingElse :
    writeThenRead.pending = .transaction (.write 1 15 (.byte 0xab#8)) :: [readEv 1 15 .byte] ∧
    (¬IllFormed 64 (writeEv 0 0x0C (.word 1#32)) ∧ ¬IllFormed 64 (writeEv 0 0x10 (.word 1#32)) ∧
      ¬IllFormed 64 (writeEv 0 0x18 (.word 1#32)) ∧ ¬IllFormed 64 (writeEv 0 0x1C (.word 1#32)) ∧
      ¬IllFormed 64 (writeEv 1 15 (.byte 0xab#8)) ∧ ¬IllFormed 64 (writeEv 2 15 (.byte 0xab#8)) ∧
      ¬IllFormed 64 (writeEv 3 63 (.byte 0xab#8))) ∧ ¬(1 = 0 ∧ 15 = 0x00) := by
  simp [IllFormed, readEv, writeEv, BadAccess, ReadOnly, isWordRegion, regionSize, writeThenRead]

/-- Each constructor of `Stores` is inhabited at the last offset of its range. -/
theorem witness_Stores :
    (∃ t, Stores full 0 0x0C (.word 1#32) t) ∧ (∃ t, Stores full 0 0x10 (.word 1#32) t) ∧
    (∃ t, Stores full 0 0x18 (.word 1#32) t) ∧ (∃ t, Stores full 0 0x1C (.word 1#32) t) ∧
    (∃ t, Stores full 1 15 (.byte 0xab#8) t) ∧ (∃ t, Stores full 2 15 (.byte 0xab#8) t) ∧
    (∃ t, Stores full 3 63 (.byte 0xab#8) t) :=
  ⟨⟨_, .opa _⟩, ⟨_, .opb _⟩, ⟨_, .klen _⟩, ⟨_, .clen _⟩,
    ⟨_, .key 15 _ (full.engine.key.set 15 0xab#8) (by decide +kernel) (by decide +kernel)⟩,
    ⟨_, .st 15 _ (full.engine.st.set 15 0xab#8) (by decide +kernel) (by decide +kernel)⟩,
    ⟨_, .ct 63 _ (full.engine.ct.write 63 0xab#8) (by decide) (Memory.read_write_same _ _ _) (by
      intro a h
      rw [Memory.read_write_other _ _ h])⟩⟩

/-- A write to `KEY[15]` followed by a read of it. -/
theorem witness_ReadAfterWriteAnswersTheValue :
    writeThenRead.pending = .transaction (.write 1 15 (.byte 0xab#8)) :: .transaction (.read 1 15 .byte) :: [] ∧
    ¬(1 = 0 ∧ 15 = 0x00) ∧ ∃ t, step writeThenRead = .next t := ⟨rfl, by decide, _, rfl⟩

/-- `State.reset` itself, and a reset event on a state with everything set. -/
theorem witness_ResetLeavesTheTableOfResetValues :
    (∃ e, e = State.reset.engine) ∧
    ∃ e, ∃ s t rest, s = sending full .reset ∧ s.pending = .reset :: rest ∧ step s = .next t ∧ t.engine = e :=
  ⟨⟨_, rfl⟩, _, _, _, [], rfl, rfl, rfl, rfl⟩

/-- A reset event waits, and a transaction behind it. -/
theorem witness_ResetIsAlwaysServedAndForgetsTheBuffers :
    State.pending { full with pending := [.reset, readEv 0 0 .word] } = .reset :: [readEv 0 0 .word] := rfl

/-- The reset state with the smaller capacity; a round; one read of each gated region. -/
theorem witness_CommandsAfterResetActAsListed :
    idle.engine = State.reset.engine ∧ (10#4).toNat ≤ 10 ∧
    (¬IllFormed idle.dcap (readEv 4 63 .byte) ∧ ¬IllFormed idle.dcap (readEv 5 255 .byte) ∧
      ¬IllFormed idle.dcap (readEv 6 255 .byte) ∧ ¬IllFormed idle.dcap (readEv 7 40 .word) ∧
      ¬IllFormed idle.dcap (readEv 8 172 .word)) := by
  refine ⟨rfl, by decide, ?_⟩
  simp [IllFormed, readEv, BadAccess, isWordRegion, regionSize, idle]

/-- Both clauses: a zero operand and a nonzero one. -/
theorem witness_GfinvLeavesTheFieldInverseInRes :
    (withOperands idle 0xffffff00#32 0#32).engine.opa.extractLsb' 0 8 = 0#8 ∧
    (withOperands idle 0xffffff53#32 0#32).engine.opa.extractLsb' 0 8 ≠ 0#8 := by decide

/-- A nonzero byte. -/
theorem witness_MultiplyObeysTheFieldLaws : (0xff#8 : Byte) ≠ 0#8 := by decide

/-- A nonzero byte. -/
theorem witness_InverseIsThe254thPowerAndInverts : (0xff#8 : Byte) ≠ 0#8 := by decide

/-- The last bit index. -/
theorem witness_AffineIsTheBitMatrixAndABijection : 7 < 8 := by decide

/-- The bytes in descending order. -/
theorem witness_TableBuildGivesInversePermutationsWhateverWasThere :
    ((List.finRange 256).reverse).Perm (List.finRange 256) := List.reverse_perm _

/-- Valid tables. -/
theorem witness_SbgenBuildsTheTables :
    full.engine.sv = true ∧ SboxTables full.engine.sbox full.engine.isbox := ⟨rfl, sboxTables_V14_V15⟩

/-- Both clauses of `EnsuredSbox`. -/
theorem witness_EnsuredSbox : full.engine.sv = true ∧ idle.engine.sv = false := ⟨rfl, rfl⟩

/-- Both clauses of `EnsuredRcon`. -/
theorem witness_EnsuredRcon : full.engine.rv = true ∧ idle.engine.rv = false := ⟨rfl, rfl⟩

/-- Valid tables; both orders run. -/
theorem witness_WordSubstitutionsUndoEachOther :
    (full.engine.sv = true → SboxTables full.engine.sbox full.engine.isbox) ∧ full.engine.sv = true ∧
    (∃ t u, exec .subw full = .next t ∧
      exec .isubw { t with engine := { t.engine with opa := t.engine.res } } = .next u) ∧
    (∃ t u, exec .isubw full = .next t ∧
      exec .subw { t with engine := { t.engine with opa := t.engine.res } } = .next u) :=
  ⟨fun _ => sboxTables_V14_V15, rfl, ⟨_, _, rfl, rfl⟩, ⟨_, _, rfl, rfl⟩⟩

/-- The last byte of a word. -/
theorem witness_RotwMovesEveryByteOnePlaceLeft : 3 < 4 := by decide

/-- Both clauses: a legal and an illegal declared key length. -/
theorem witness_KeyexpExpandsTheKey :
    (withLengths idle 17#32 0#32).engine.klen ≠ 16#32 ∧ full.engine.klen = 16#32 := by decide +kernel

/-- The clauses: words with round 11 and with bit 12 set; round 10, with and without a
schedule; the schedule of a key. -/
theorem witness_ArkAddsTheRoundKey :
    ((0x00000b30#32 : Word).extractLsb' 0 8 = 0x30#8 ∧ 10 < ((0x00000b30#32 : Word).extractLsb' 8 4).toNat) ∧
    ((0x00001030#32 : Word).extractLsb' 0 8 = 0x30#8 ∧ (0x00001030#32 : Word).extractLsb' 12 20 ≠ 0#20) ∧
    (10#4).toNat ≤ 10 ∧ idle.engine.kv = false ∧ full.engine.kv = true ∧
    full.engine.ks = expandKey full.engine.sbox full.engine.rcon keyV19 :=
  ⟨by decide, by decide, by decide, rfl, rfl, test_expandKey.symm⟩

/-- A column of four equal bytes beside others, and sixteen equal bytes. -/
theorem witness_ImixcMultipliesEveryColumn :
    (∀ r : Fin 4, (blockOf 0x000102030405060708090a0bffffffff)[4 * (3 : Fin 4).val + r.val] =
      (blockOf 0x000102030405060708090a0bffffffff)[4 * (3 : Fin 4).val]) ∧
    ∀ k : Fin 16, (blockOf 0xffffffffffffffffffffffffffffffff)[k] = (blockOf 0xffffffffffffffffffffffffffffffff)[0] := by
  decide +kernel

/-- Both clauses. -/
theorem witness_DecblkDecryptsTheBlock : idle.engine.kv = false ∧ full.engine.kv = true := ⟨rfl, rfl⟩

/-- A schedule and tables are valid. -/
theorem witness_FortyPrimitivesEqualOneDecblk : full.engine.kv = true ∧ full.engine.sv = true := ⟨rfl, rfl⟩

/-- The three failures; the lengths at their largest and at zero, with blocks and offsets at their bounds. -/
theorem witness_EcbdecDecryptsEveryBlockOrFails :
    (withLengths full 15#32 17#32).engine.klen ≠ 16#32 ∧
    ((withLengths full 16#32 72#32).engine.klen = 16#32 ∧ (withLengths full 16#32 72#32).engine.clen.toNat % 16 ≠ 0) ∧
    ((withLengths full 16#32 80#32).engine.klen = 16#32 ∧ (withLengths full 16#32 80#32).engine.clen.toNat % 16 = 0 ∧
      full.dcap < (withLengths full 16#32 80#32).engine.clen.toNat) ∧
    ((withLengths full 16#32 64#32).engine.klen = 16#32 ∧ (withLengths full 16#32 64#32).engine.clen.toNat % 16 = 0 ∧
      (withLengths full 16#32 64#32).engine.clen.toNat ≤ full.dcap ∧
      3 < (withLengths full 16#32 64#32).engine.clen.toNat / 16 ∧
      16 ≤ (withLengths full 16#32 64#32).engine.clen.toNat) ∧
    ((withLengths full 16#32 0#32).engine.klen = 16#32 ∧ (withLengths full 16#32 0#32).engine.clen.toNat % 16 = 0 ∧
      (withLengths full 16#32 0#32).engine.clen.toNat ≤ full.dcap ∧
      (withLengths full 16#32 0#32).engine.clen.toNat = 0) := by decide +kernel

seal decryptBlock expandKey in
/-- One block, beside a run whose CT holds the same block and another byte above it. -/
theorem witness_PlaintextBlockDependsOnlyOnItsCiphertextBlock :
    ∃ t u ct, exec .ecbdec full = .next t ∧
      exec .ecbdec { full with engine := { full.engine with ct := ct } } = .next u ∧ ct ≠ full.engine.ct ∧
      t.engine.err = .ok ∧ 0 < full.engine.clen.toNat / 16 ∧
      ∀ j : Fin 16, full.ctByte (16 * 0 + j.val) =
        State.ctByte { full with engine := { full.engine with ct := ct } } (16 * 0 + j.val) := by
  refine ⟨_, _, full.engine.ct.write 16 0xab#8, test_ecbdec.1, rfl, by decide +kernel, rfl, by decide, by decide +kernel⟩

/-- Two blocks in descending order. -/
theorem witness_BlockOrderCannotBeObservedInPt : List.Perm [1, 0] (List.range 2) := by decide

/-- The one instruction with a bound. -/
theorem witness_EveryCommandEndsWithItsResultCode : Instr.WellFormed (.ark 10#4) := by decide

/-- A command that fails, and an illegal word. -/
theorem witness_FailedCommandChangesErrOnly :
    (∃ t, exec .decblk idle = .next t ∧ t.engine.err ≠ .ok) ∧
    ∃ t, runCommand 0x00000b30#32 full = .next t ∧ t.engine.err ≠ .ok := ⟨⟨_, rfl, by decide⟩, _, rfl, by decide⟩

/-- A command that sets all three flags, and a step that is no reset on a state with all three set. -/
theorem witness_FlagsAreSetByTheListedCommandsAndClearedByResetOnly :
    (∃ t, exec .keyexp full = .next t) ∧
    (∃ t, step (sending full (readEv 0 0 .word)) = .next t) ∧
    (sending full (readEv 0 0 .word)).pending.head? ≠ some .reset ∧ full.engine.sv = true ∧ full.engine.rv = true ∧
    full.engine.kv = true := ⟨⟨_, rfl⟩, ⟨_, rfl⟩, by decide, rfl, rfl, rfl⟩

/-- A host write, and a command that writes PT with an offset above `CLEN`. -/
theorem witness_CommandsAndHostWriteOnlyWhatTheyMay :
    (writeThenRead.pending = writeEv 1 15 (.byte 0xab#8) :: [readEv 1 15 .byte] ∧
      writeEv 1 15 (.byte 0xab#8) ≠ .reset ∧
      (∀ w, writeEv 1 15 (.byte 0xab#8) ≠ .transaction (.write 0 0x00 (.word w))) ∧
      ∃ t, step writeThenRead = .next t) ∧
    (∃ t, exec .ecbdec full = .next t) ∧ full.engine.clen.toNat ≤ 16 :=
  ⟨⟨rfl, by decide, (by intro w h; simp [writeEv] at h), _, rfl⟩, ⟨_, test_ecbdec.1⟩, by decide⟩

seal decryptBlock expandKey in
/-- A write to KEY and one to KLEN; DECBLK runs before and after; ECBDEC runs after the one, and KEYEXP fails after
the other. -/
theorem witness_KeyWritesLeaveTheOldScheduleInUse :
    (∃ t, writeThenRead.pending = .transaction (.write 1 15 (.byte 0xab#8)) :: [readEv 1 15 .byte] ∧
      step writeThenRead = .next t ∧
      (∃ u w, exec .decblk writeThenRead = .next u ∧ exec .decblk t = .next w) ∧
      ∃ u, exec .ecbdec t = .next u ∧ u.engine.err = .ok) ∧
    (∃ t, (sending full (writeEv 0 0x18 (.word 15#32))).pending = .transaction (.write 0 0x18 (.word 15#32)) :: [] ∧
      step (sending full (writeEv 0 0x18 (.word 15#32))) = .next t ∧ t.engine.klen ≠ 16#32 ∧
      ∃ u, exec .keyexp t = .next u) :=
  ⟨⟨_, rfl, rfl, ⟨_, _, rfl, rfl⟩, _, rfl, rfl⟩, _, rfl, rfl, by decide, _, rfl⟩

/-- The invariant and a step that runs a command. -/
theorem witness_StepKeepsTheInvariant :
    StateInv (sending full (writeEv 0 0x00 (.word 0x00000a30#32))) ∧
    ∃ t, step (sending full (writeEv 0 0x00 (.word 0x00000a30#32))) = .next t := ⟨stateInv_sending _, _, rfl⟩

/-- The invariant, valid tables, and a step that runs SBGEN. -/
theorem witness_ValidTablesNeverChangeUntilReset :
    StateInv (sending full (writeEv 0 0x00 (.word 0x00000010#32))) ∧
    (∃ t, step (sending full (writeEv 0 0x00 (.word 0x00000010#32))) = .next t) ∧
    (sending full (writeEv 0 0x00 (.word 0x00000010#32))).pending.head? ≠ some .reset ∧
    full.engine.sv = true ∧ full.engine.rv = true := ⟨stateInv_sending _, ⟨_, rfl⟩, by decide, rfl, rfl⟩

seal buildSboxTables Machine.buildRcon expandKey in
/-- The invariant, and commands: on valid tables, after which both clauses apply; on tables that are not valid, where
SUBW builds the tables lazily and KEYEXP builds RCON too, and where ISHR builds nothing. -/
theorem witness_EagerAndLazyBuildsAgree :
    (StateInv full ∧ ∃ t, exec .subw full = .next t ∧ t.engine.sv = true ∧ t.engine.rv = true) ∧
    (StateInv idle ∧ idle.engine.sv = false ∧ idle.engine.rv = false ∧
      (∃ t, exec .subw idle = .next t ∧ t.engine.sv = true ∧ t.engine.rv = false) ∧
      ∃ t, exec .ishr idle = .next t ∧ t.engine.sv = false ∧ t.engine.rv = false) ∧
    (StateInv { idle with engine := { idle.engine with klen := 16#32 } } ∧
      ∃ t, exec .keyexp { idle with engine := { idle.engine with klen := 16#32 } } = .next t ∧
        t.engine.sv = true ∧ t.engine.rv = true) :=
  ⟨⟨stateInv_full, _, rfl, rfl, rfl⟩,
    ⟨stateInv_idle, rfl, rfl, ⟨_, rfl, rfl, rfl⟩, _, rfl, rfl, rfl⟩,
    ⟨stateInv_idle.1, stateInv_idle.2, stateInv_idle.3, stateInv_idle.4, stateInv_idle.5, stateInv_idle.6,
      stateInv_idle.7, stateInv_idle.8, stateInv_idle.9, stateInv_idle.10⟩, _, rfl, rfl, rfl⟩

/-- Two states that differ in hidden storage only: RCON while `RV = 0`, the tables while `SV = 0`, KS while
`KV = 0` and PT at PLEN. -/
theorem witness_HiddenStorageIsUnobservable :
    ∃ s t, s ≠ t ∧ SameView s t ∧ (s.engine.kv = true → s.engine.sv = true) ∧ ∃ s', step s = .next s' :=
  ⟨sending idle (readEv 0 0 .word),
    { sending idle (readEv 0 0 .word) with engine := { idle.engine with
        rcon := rconV17, sbox := sboxV14, isbox := isboxV15, ks := ksV19, pt := bufferOf plainV24 } },
    by intro h; have := congrArg (fun s => s.engine.pt) h; revert this; decide +kernel,
    ⟨⟨rfl, rfl, rfl, rfl, rfl, rfl, rfl⟩, ⟨rfl, rfl, rfl⟩, ⟨rfl, rfl, rfl⟩, nofun, nofun,
      nofun, by intro off h; exact absurd h (Nat.not_lt_zero off), ⟨rfl, rfl, rfl, rfl⟩⟩,
    nofun, _, rfl⟩

end Sys2Proof.Machine.Tests
end

section
/-! PROOFS. What a command, a host write and a step can do, said once: the invariants below are read off these
relations, without unfolding `exec` or `step`. -/

namespace Sys2Proof.Machine

/-! ## The lazy builds and the block loop, field by field -/

section
variable (s : State)

@[simp] theorem ensureSbox_opa : s.ensureSbox.engine.opa = s.engine.opa := by rw [ensureSbox_frame]
@[simp] theorem ensureSbox_res : s.ensureSbox.engine.res = s.engine.res := by rw [ensureSbox_frame]
@[simp] theorem ensureSbox_sv : s.ensureSbox.engine.sv = true := by rw [ensureSbox_frame]
@[simp] theorem ensureSbox_rv : s.ensureSbox.engine.rv = s.engine.rv := by rw [ensureSbox_frame]
@[simp] theorem ensureSbox_kv : s.ensureSbox.engine.kv = s.engine.kv := by rw [ensureSbox_frame]
@[simp] theorem ensureSbox_plen : s.ensureSbox.engine.plen = s.engine.plen := by rw [ensureSbox_frame]
@[simp] theorem ensureSbox_st : s.ensureSbox.engine.st = s.engine.st := by rw [ensureSbox_frame]
@[simp] theorem ensureSbox_ks : s.ensureSbox.engine.ks = s.engine.ks := by rw [ensureSbox_frame]
@[simp] theorem ensureSbox_rcon : s.ensureSbox.engine.rcon = s.engine.rcon := by rw [ensureSbox_frame]
@[simp] theorem ensureSbox_pt : s.ensureSbox.engine.pt = s.engine.pt := by rw [ensureSbox_frame]

@[simp] theorem ensureRcon_sv : s.ensureRcon.engine.sv = s.engine.sv := by rw [ensureRcon_frame]
@[simp] theorem ensureRcon_rv : s.ensureRcon.engine.rv = true := by rw [ensureRcon_frame]

@[simp] theorem expandSchedule_res : s.expandSchedule.engine.res = s.engine.res := by rw [expandSchedule_spec]
@[simp] theorem expandSchedule_sv : s.expandSchedule.engine.sv = true := by rw [expandSchedule_spec]
@[simp] theorem expandSchedule_rv : s.expandSchedule.engine.rv = true := by rw [expandSchedule_spec]
@[simp] theorem expandSchedule_kv : s.expandSchedule.engine.kv = true := rfl
@[simp] theorem expandSchedule_plen : s.expandSchedule.engine.plen = s.engine.plen := by rw [expandSchedule_spec]
@[simp] theorem expandSchedule_st : s.expandSchedule.engine.st = s.engine.st := by rw [expandSchedule_spec]
@[simp] theorem expandSchedule_sbox : s.expandSchedule.engine.sbox = s.ensureSbox.engine.sbox := by
  rw [expandSchedule_spec]
@[simp] theorem expandSchedule_isbox : s.expandSchedule.engine.isbox = s.ensureSbox.engine.isbox := by
  rw [expandSchedule_spec]
@[simp] theorem expandSchedule_rcon : s.expandSchedule.engine.rcon = s.ensureRcon.engine.rcon := by
  rw [expandSchedule_spec]
@[simp] theorem expandSchedule_pt : s.expandSchedule.engine.pt = s.engine.pt := by rw [expandSchedule_spec]
@[simp] theorem expandSchedule_dcap : s.expandSchedule.dcap = s.dcap := by rw [expandSchedule_spec]
@[simp] theorem expandSchedule_resets : s.expandSchedule.resets = s.resets := by rw [expandSchedule_spec]

@[simp] theorem ecbBlocks_res (n : Nat) : (s.ecbBlocks n).engine.res = s.engine.res := by rw [ecbBlocks_frame]
@[simp] theorem ecbBlocks_sv (n : Nat) : (s.ecbBlocks n).engine.sv = s.engine.sv := by rw [ecbBlocks_frame]
@[simp] theorem ecbBlocks_rv (n : Nat) : (s.ecbBlocks n).engine.rv = s.engine.rv := by rw [ecbBlocks_frame]
@[simp] theorem ecbBlocks_kv (n : Nat) : (s.ecbBlocks n).engine.kv = s.engine.kv := by rw [ecbBlocks_frame]
@[simp] theorem ecbBlocks_sbox (n : Nat) : (s.ecbBlocks n).engine.sbox = s.engine.sbox := by rw [ecbBlocks_frame]
@[simp] theorem ecbBlocks_isbox (n : Nat) : (s.ecbBlocks n).engine.isbox = s.engine.isbox := by rw [ecbBlocks_frame]
@[simp] theorem ecbBlocks_rcon (n : Nat) : (s.ecbBlocks n).engine.rcon = s.engine.rcon := by rw [ecbBlocks_frame]
@[simp] theorem ecbBlocks_ks (n : Nat) : (s.ecbBlocks n).engine.ks = s.engine.ks := by rw [ecbBlocks_frame]
@[simp] theorem ecbBlocks_ct (n : Nat) : (s.ecbBlocks n).engine.ct = s.engine.ct := by rw [ecbBlocks_frame]
@[simp] theorem ecbBlocks_resets (n : Nat) : (s.ecbBlocks n).resets = s.resets := by rw [ecbBlocks_frame]

/-- The lazy S-box build stores only while `SV = 0` (R133). -/
theorem ensureSbox_kept : s.engine.sv = false ∨ s.ensureSbox.engine.sbox = s.engine.sbox ∧
    s.ensureSbox.engine.isbox = s.engine.isbox ∧ s.engine.sv = true := by
  obtain ⟨hs, e⟩ | ⟨hs, -⟩ := ensureSbox_cases s
  · exact .inr ⟨by rw [e], by rw [e], hs⟩
  · exact .inl hs

/-- The lazy RCON build stores only while `RV = 0` (R153). -/
theorem ensureRcon_kept : s.engine.rv = false ∨ s.ensureRcon.engine.rcon = s.engine.rcon ∧ s.engine.rv = true := by
  obtain ⟨hr, e⟩ | ⟨hr, -⟩ := ensureRcon_cases s
  · exact .inr ⟨by rw [e], hr⟩
  · exact .inl hr

end

/-! ## Commands -/

/-- How command `i` can end from `s` (10_state.md R44): one constructor per way, with the states in which it ends so.
The values stored in RES and ST are left open. -/
inductive Effect (s : State) : Instr → State → Prop where
  | failed (i : Instr) (c : ResultCode) : c ≠ .ok → Effect s i (s.fail c)
  | res (i : Instr) (v : Word) : i = .gfmul ∨ i = .gfinv → Effect s i (s.setRes v).succeed
  | substituted (i : Instr) (v : Word) : i = .subw ∨ i = .isubw → Effect s i (s.ensureSbox.setRes v).succeed
  | sbgen : Effect s .sbgen s.buildSbox.setSv.succeed
  | rcgen : Effect s .rcgen s.buildRcon.setRv.succeed
  | keyexp : Effect s .keyexp s.expandSchedule.succeed
  | st (i : Instr) (v : Block) : (∃ r, i = .ark r) ∨ i = .ishr ∨ i = .imixc ∨ i = .decblk →
      Effect s i (s.setSt v).succeed
  | isubb (v : Block) : Effect s .isubb (s.ensureSbox.setSt v).succeed
  | ecbdec : s.engine.clen.toNat % 16 = 0 → s.engine.clen.toNat ≤ s.dcap →
      Effect s .ecbdec ((s.expandSchedule.ecbBlocks (s.engine.clen.toNat / 16)).setPlen s.engine.clen).succeed

/-- Every command ends in one of these ways. -/
theorem effect_of_exec {i : Instr} {s t : State} (h : exec i s = .next t) : Effect s i t := by
  cases i with
  | gfmul => obtain rfl := Host.Outcome.next.inj h; exact .res _ _ (.inl rfl)
  | gfinv => obtain rfl := Host.Outcome.next.inj h; exact .res _ _ (.inr rfl)
  | sbgen => obtain rfl := Host.Outcome.next.inj h; exact .sbgen
  | subw => obtain rfl := Host.Outcome.next.inj h; exact .substituted _ _ (.inl rfl)
  | isubw => obtain rfl := Host.Outcome.next.inj h; exact .substituted _ _ (.inr rfl)
  | rcgen => obtain rfl := Host.Outcome.next.inj h; exact .rcgen
  | keyexp =>
    obtain ⟨-, e⟩ | ⟨-, e⟩ := execKeyexp_cases s <;> obtain rfl := Host.Outcome.next.inj (e.symm.trans h)
    · exact .failed _ _ nofun
    · exact .keyexp
  | ark r =>
    obtain ⟨-, e⟩ | ⟨_, -, e⟩ | ⟨-, -, e⟩ := execArk_cases s r <;>
      obtain rfl := Host.Outcome.next.inj (e.symm.trans h)
    · exact .failed _ _ nofun
    · exact .st _ _ (.inl ⟨r, rfl⟩)
    · exact .failed _ _ nofun
  | ishr => obtain rfl := Host.Outcome.next.inj h; exact .st _ _ (.inr (.inl rfl))
  | isubb => obtain rfl := Host.Outcome.next.inj h; exact .isubb _
  | imixc => obtain rfl := Host.Outcome.next.inj h; exact .st _ _ (.inr (.inr (.inl rfl)))
  | decblk =>
    obtain ⟨-, e⟩ | ⟨-, e⟩ := execDecblk_cases s <;> obtain rfl := Host.Outcome.next.inj (e.symm.trans h)
    · exact .st _ _ (.inr (.inr (.inr rfl)))
    · exact .failed _ _ nofun
  | ecbdec =>
    obtain ⟨-, e⟩ | ⟨-, -, e⟩ | ⟨-, -, -, e⟩ | ⟨-, hm, hc, e⟩ := execEcbdec_cases s <;>
      obtain rfl := Host.Outcome.next.inj (e.symm.trans h)
    · exact .failed _ _ nofun
    · exact .failed _ _ nofun
    · exact .failed _ _ nofun
    · exact .ecbdec hm hc

/-! ## Host writes -/

/-- What a write stores (20_memory.md R65 (d)): registers, KEY and ST, or one byte of CT within the capacity. -/
inductive HostStored (s : State) : State → Prop where
  | fields (opa opb klen clen : Word) (key st : Block) :
      HostStored s { s with engine := { s.engine with opa, opb, klen, clen, key, st } }
  | ctByte (off : Nat) (v : Byte) : off < s.dcap → HostStored s (s.setCtByte off v)

/-- A write is no HostError exactly when the access is allowed and the location is one the host may write (R64). -/
theorem hostWrite_ok_iff {s : State} {id off : Nat} {v : Value} {a : WriteAction} :
    hostWrite s id off v = .ok a ↔
      ∃ r, checkAccess s.dcap id off v.width = .ok r ∧ hostWritable r off = true ∧ writeLocation s r off v = a := by
  unfold hostWrite
  cases checkAccess s.dcap id off v.width with
  | error e => simp
  | ok r => by_cases hw : hostWritable r off = true <;> simp [hw]

/-- A plain register write stores so. -/
theorem hostStored_regWrite (s : State) (off : Nat) (w : Word) : HostStored s (regWrite s off w) := by
  unfold regWrite
  split <;> exact .fields _ _ _ _ _ _

/-- The write that an allowed transaction performs stores so. -/
theorem hostStored_of_hostWrite {s u : State} {id off : Nat} {v : Value}
    (h : hostWrite s id off v = .ok (.stored u)) : HostStored s u := by
  obtain ⟨r, hr, -, hu⟩ := hostWrite_ok_iff.1 h
  unfold writeLocation at hu
  split at hu
  · split at hu
    · cases hu
    · cases hu
      exact hostStored_regWrite s off _
  · cases hu
    exact .fields _ _ _ _ _ _
  · cases hu
    exact .fields _ _ _ _ _ _
  · cases hu
    obtain ⟨-, hoff, -⟩ := (checkAccess_ok_iff ..).1 hr
    exact .ctByte off _ (Nat.lt_of_succ_le hoff)
  · cases hu
    exact .fields _ _ _ _ _ _

/-- The register region's only id (R60). -/
theorem eq_zero_of_regionOf {id : Nat} (h : regionOf id = some .reg) : id = 0 := by
  unfold regionOf at h
  split at h <;> simp_all

/-- The only write that is a command is a word written to CMD (R66). -/
theorem eq_cmd_of_hostWrite {s : State} {id off : Nat} {v : Value} {w : Word}
    (h : hostWrite s id off v = .ok (.command w)) : id = 0 ∧ off = 0 ∧ v = .word w := by
  obtain ⟨r, hr, -, hw⟩ := hostWrite_ok_iff.1 h
  obtain ⟨w', rfl, rfl, rfl, e⟩ | ⟨t, e, -⟩ := writeLocation_cases s r off v <;> rw [e] at hw <;> cases hw
  obtain ⟨hid, -⟩ := (checkAccess_ok_iff ..).1 hr
  exact ⟨eq_zero_of_regionOf hid, rfl, rfl⟩

/-! ## Steps -/

/-- The state in which an event is answered: it waits no longer, and the reply is on the port. -/
def State.answering (s : State) (rest : List HostEvent) (reply : Reply) : State :=
  { s with pending := rest, reply := some reply }

/-- What a write stores does not depend on the events that wait or the reply. -/
theorem HostStored.answering {s u : State} {rest : List HostEvent} (r : Reply)
    (h : HostStored { s with pending := rest } u) : HostStored (s.answering rest r) { u with reply := some r } := by
  cases h with
  | fields => exact .fields _ _ _ _ _ _
  | ctByte off v ho => exact .ctByte off v ho

/-- How a step can end that answers a next state. -/
inductive StepEffect (s : State) : State → Prop where
  | idle : s.pending = [] → StepEffect s s
  | reset (rest : List HostEvent) : s.pending = .reset :: rest →
      StepEffect s ({ s with pending := rest } : State).afterReset
  | read (id off : Nat) (n : Width) (v : Value) (rest : List HostEvent) :
      s.pending = .transaction (.read id off n) :: rest → hostRead { s with pending := rest } id off n = .ok v →
      StepEffect s (s.answering rest (.value v))
  | stored (id off : Nat) (v : Value) (rest : List HostEvent) (t : State) :
      s.pending = .transaction (.write id off v) :: rest → HostStored (s.answering rest .done) t → StepEffect s t
  | command (w : Word) (rest : List HostEvent) (i : Instr) (t : State) :
      s.pending = .transaction (.write 0 0 (.word w)) :: rest → decode w = .ok i →
      exec i (s.answering rest .done) = .next t → StepEffect s t
  | illegal (w : Word) (rest : List HostEvent) (e : DecodeError) :
      s.pending = .transaction (.write 0 0 (.word w)) :: rest → decode w = .error e →
      StepEffect s ((s.answering rest .done).fail .illegalCommand)

/-- Every step ends in one of these ways. -/
theorem stepEffect_of_step {s t : State} (h : step s = .next t) : StepEffect s t := by
  cases hp : s.pending with
  | nil =>
    obtain rfl := Host.Outcome.next.inj ((step_nil hp).symm.trans h)
    exact .idle hp
  | cons ev rest =>
    rw [step_cons hp] at h
    obtain ⟨rfl, rfl⟩ | ⟨id, off, n, v, rfl, hv, rfl⟩ | ⟨id, off, v, u, rfl, hw, rfl⟩ | ⟨id, off, v, w, rfl, hw, hr⟩ :=
      serve_next_cases h
    · exact .reset rest hp
    · exact .read id off n v rest hp hv
    · exact .stored id off v rest _ hp (hostStored_of_hostWrite hw |>.answering _)
    · obtain ⟨rfl, rfl, rfl⟩ := eq_cmd_of_hostWrite hw
      obtain ⟨i, hd, e⟩ | ⟨_, hd, e⟩ := runCommand_cases w (s.answering rest .done)
      · exact .command w rest i t hp hd (e.symm.trans hr)
      · obtain rfl := Host.Outcome.next.inj (e.symm.trans hr)
        exact .illegal w rest _ hp hd

end Sys2Proof.Machine
end

section
/-! PROOFS. The table builds (42_sbox_generator.md R131, 43_key_schedule.md R151): whatever the arrays held before,
they hold the tables of R42 (a) and (b) after, and these determine the arrays. -/

namespace Sys2Proof.Machine

/-! ## The S-box is injective -/

/-- `inverse` is its own inverse (41_gf_engine.md R113). -/
theorem inverse_inverse : ∀ a : Byte, inverse (inverse a) = a := by
  simp only [inverse_eq_inverseNat]
  decide +kernel

/-- The inverse of the affine map: three rotations XORed, then a constant. -/
def affineInverse (y : Byte) : Byte := rotl8 y 1 ^^^ rotl8 y 3 ^^^ rotl8 y 6 ^^^ 0x05#8

/-- `affineInverse` undoes `affine` at every byte. -/
theorem affineInverse_affine : ∀ x : Byte, affineInverse (affine x) = x := by
  decide +kernel

/-- The S-box entry `affine(inverse(a))` determines `a`. -/
theorem affine_inverse_injective : Function.Injective fun a : Byte => affine (inverse a) :=
  (Function.LeftInverse.injective affineInverse_affine).comp (Function.LeftInverse.injective inverse_inverse)

/-- Every byte is an S-box entry. -/
theorem affine_inverse_surjective : Function.Surjective fun a : Byte => affine (inverse a) :=
  Finite.surjective_of_injective affine_inverse_injective

/-! ## The S-box tables -/

/-- Two tables with the same entries are the same. -/
theorem table_ext {t u : Table} (h : ∀ b : Byte, lookup t b = lookup u b) : t = u :=
  Vector.ext fun i hi => h (BitVec.ofNatLT i hi)

/-- A look-up after one entry was set. -/
theorem lookup_set (t : Table) (a b v : Byte) :
    lookup (t.set a.toNat v a.isLt) b = if b = a then v else lookup t b := by
  simp only [lookup, Vector.getElem_set, BitVec.toNat_inj, eq_comm]

/-- One pass of R131's loop writes the entry of its byte in both tables. -/
theorem lookup_sboxStep (t : Table × Table) (a b : Byte) :
    lookup (sboxStep t a.toFin).1 b = (if b = a then affine (inverse a) else lookup t.1 b) ∧
    lookup (sboxStep t a.toFin).2 (affine (inverse b)) = if b = a then a else lookup t.2 (affine (inverse b)) := by
  refine ⟨lookup_set t.1 a b _, ?_⟩
  have h := lookup_set t.2 (affine (inverse a)) (affine (inverse b)) a
  simp only [affine_inverse_injective.eq_iff] at h
  exact h

/-- The tables after R131's loop has run over some bytes, in whatever order: their entries are written, every
other entry is as before. -/
theorem lookup_foldl_sboxStep (l : List (Fin 256)) (t : Table × Table) (b : Byte) :
    lookup (l.foldl sboxStep t).1 b = (if b.toFin ∈ l then affine (inverse b) else lookup t.1 b) ∧
    lookup (l.foldl sboxStep t).2 (affine (inverse b)) =
      if b.toFin ∈ l then b else lookup t.2 (affine (inverse b)) := by
  induction l generalizing t with
  | nil => simp
  | cons a l ih =>
    obtain ⟨i1, i2⟩ := ih (sboxStep t a)
    obtain ⟨h1, h2⟩ := lookup_sboxStep t (BitVec.ofFin a) b
    rw [BitVec.toFin_ofFin] at h1 h2
    simp only [List.foldl_cons, i1, i2, h1, h2, List.mem_cons]
    by_cases hl : b.toFin ∈ l
    · simp [hl]
    · by_cases ha : b = BitVec.ofFin a
      · simp [ha]
      · have ha' : b.toFin ≠ a := fun e => ha (by rw [← e])
        simp [hl, ha, ha']

/-- The build leaves the tables of R42 (a), whatever the arrays held. -/
theorem buildSboxTables_valid (t : Table × Table) : SboxTables (buildSboxTables t).1 (buildSboxTables t).2 := by
  have h := lookup_foldl_sboxStep (List.finRange 256) t
  simp only [List.mem_finRange, if_true] at h
  refine ⟨fun a => (h a).1, fun a => ?_⟩
  rw [show lookup (buildSboxTables t).1 a = _ from (h a).1]
  exact (h a).2

/-- R42 (a) determines both tables. -/
theorem SboxTables.unique {sbox isbox sbox' isbox' : Table} (h : SboxTables sbox isbox)
    (h' : SboxTables sbox' isbox') : sbox = sbox' ∧ isbox = isbox' := by
  obtain ⟨hs, hi⟩ := h
  obtain ⟨hs', hi'⟩ := h'
  refine ⟨table_ext fun a => (hs a).trans (hs' a).symm, table_ext fun b => ?_⟩
  obtain ⟨a, rfl⟩ := affine_inverse_surjective b
  calc lookup isbox (affine (inverse a)) = a := by rw [← hs, hi]
    _ = lookup isbox' (affine (inverse a)) := by rw [← hs', hi']

/-- The build does not depend on what the arrays held (R131). -/
theorem buildSboxTables_congr (t u : Table × Table) : buildSboxTables t = buildSboxTables u :=
  let ⟨h1, h2⟩ := (buildSboxTables_valid t).unique (buildSboxTables_valid u)
  Prod.ext h1 h2

/-! ## RCON -/

/-- R42 (b) determines the array. -/
theorem RconValues.unique {r r' : RconTable} (h : RconValues r) (h' : RconValues r') : r = r' :=
  Vector.toList_inj.1 (Eq.trans h (Eq.symm h'))

/-- Where two arrays agree, or where R151's loop stores, the arrays after it agree. -/
theorem foldl_rconStep_congr (l : List (Fin 10)) (r r' : RconTable) (v : Byte) {j : Nat} (hj : j < 11)
    (h : r[j] = r'[j] ∨ ∃ i ∈ l, i.val + 1 = j) :
    (l.foldl rconStep (r, v)).1[j] = (l.foldl rconStep (r', v)).1[j] := by
  induction l generalizing r r' v with
  | nil => simpa using h
  | cons i l ih =>
    refine ih _ _ _ ?_
    simp only [Vector.getElem_set]
    by_cases hi : i.val + 1 = j
    · simp [hi]
    · simpa [hi] using h

/-- The build does not depend on what the array held (R151). -/
theorem buildRcon_congr (r r' : RconTable) : buildRcon r = buildRcon r' := by
  refine Vector.ext fun j hj => foldl_rconStep_congr _ _ _ _ hj ?_
  obtain rfl | h0 := Nat.eq_zero_or_pos j
  · exact .inl (by simp)
  · exact .inr ⟨⟨j - 1, by omega⟩, List.mem_finRange _, Nat.sub_add_cancel h0⟩

/-- The build leaves the eleven constants of R151, whatever the array held. -/
theorem buildRcon_values (r : RconTable) : RconValues (buildRcon r) := by
  rw [buildRcon_congr r (Vector.replicate 11 0#32)]
  unfold RconValues
  decide +kernel

end Sys2Proof.Machine
end

section
/-! PROOFS. PT as a list: what storing a block, and ECBDEC's block loop, leave in it (45_ecb_driver.md R202, R203). -/

namespace Sys2Proof.Machine

variable (s : State)

/-! ## Storing one block -/

/-- The writes of `setPtBlock`, on the buffer alone. -/
def Memory.writeBlock (m : Memory) (k : Nat) (b : Block) : Memory :=
  (List.finRange 16).foldl (fun m j => m.write (16 * k + j.val) b[j]) m

/-- Storing a block to PT is `writeBlock` on PT's list. -/
theorem setPtBlock_pt (k : Nat) (b : Block) : (s.setPtBlock k b).engine.pt = s.engine.pt.writeBlock k b :=
  (List.foldl_hom (fun s : State => s.engine.pt) fun _ _ => rfl).symm

/-- One pass of the block loop writes the decrypted block to PT. -/
theorem ecbBlock_pt (k : Nat) : (s.ecbBlock k).engine.pt =
    s.engine.pt.writeBlock k (decryptBlock s.engine.isbox s.engine.ks (s.ctBlock k)) :=
  setPtBlock_pt _ k _

/-- A block's writes keep the canonical form. -/
theorem Memory.wf_writeBlock {m : Memory} (k : Nat) (b : Block) (h : m.wf = true) : (m.writeBlock k b).wf = true :=
  List.foldlRecOn (motive := fun m : Memory => m.wf = true) _ _ h fun _ h _ _ => Memory.wf_write _ _ _ h

/-- A block's writes stay below any bound that the block fits under. -/
theorem Memory.below_writeBlock {m : Memory} {n k : Nat} (b : Block) (hk : 16 * (k + 1) ≤ n)
    (h : m.below n = true) : (m.writeBlock k b).below n = true :=
  List.foldlRecOn (motive := fun m : Memory => m.below n = true) _ _ h fun _ h j _ =>
    Memory.below_write _ _ _ _ (by omega) h

/-- After some of a block's writes, the bytes they wrote are listed, and those that were. -/
theorem Memory.isSome_read_foldl_write (l : List (Fin 16)) (m : Memory) (k : Nat) (b : Block) (off : Nat) :
    ((l.foldl (fun m j => m.write (16 * k + j.val) b[j]) m).read off).isSome = true ↔
      (∃ j ∈ l, off = 16 * k + j.val) ∨ (m.read off).isSome = true := by
  induction l generalizing m with
  | nil => simp
  | cons j l ih =>
    rw [List.foldl_cons, ih, Memory.read_write]
    by_cases hj : off = 16 * k + j.val <;> simp [hj]

/-- After a block's writes its sixteen bytes are listed, and those that were. -/
theorem Memory.isSome_read_writeBlock (m : Memory) (k : Nat) (b : Block) (off : Nat)
    (h : off / 16 = k ∨ (m.read off).isSome = true) : ((m.writeBlock k b).read off).isSome = true := by
  refine (Memory.isSome_read_foldl_write _ m k b off).2 (h.imp_left ?_)
  rintro rfl
  exact ⟨⟨off % 16, Nat.mod_lt _ (by omega)⟩, List.mem_finRange _, (Nat.div_add_mod off 16).symm⟩

/-! ## The block loop -/

/-- The block loop keeps PT's canonical form. -/
theorem ecbBlocks_pt_wf (n : Nat) (h : s.engine.pt.wf = true) : (s.ecbBlocks n).engine.pt.wf = true := by
  induction n with
  | zero => exact h
  | succ n ih =>
    rw [ecbBlocks_succ, ecbBlock_pt]
    exact Memory.wf_writeBlock _ _ ih

/-- The block loop keeps PT below a capacity that its blocks fit under. -/
theorem ecbBlocks_pt_below {n c : Nat} (hn : 16 * n ≤ c) (h : s.engine.pt.below c = true) :
    (s.ecbBlocks n).engine.pt.below c = true := by
  induction n with
  | zero => exact h
  | succ n ih =>
    rw [ecbBlocks_succ, ecbBlock_pt]
    exact Memory.below_writeBlock _ hn (ih (by omega))

/-- The block loop writes every byte of its blocks. -/
theorem ecbBlocks_pt_isSome {n off : Nat} (h : off < 16 * n) :
    ((s.ecbBlocks n).engine.pt.read off).isSome = true := by
  induction n with
  | zero => omega
  | succ n ih =>
    rw [ecbBlocks_succ, ecbBlock_pt]
    refine Memory.isSome_read_writeBlock _ _ _ _ ?_
    by_cases hn : off < 16 * n
    · exact .inr (ih hn)
    · exact .inl (by omega)

/-- CT's blocks are a function of its list and the reset counter only. -/
theorem ctBlock_congr {s t : State} (hc : t.engine.ct = s.engine.ct) (hr : t.resets = s.resets) (k : Nat) :
    t.ctBlock k = s.ctBlock k := by
  simp only [State.ctBlock, ctByte_congr hc hr]

/-- What one pass of the block loop leaves in PT: the decrypted block, and every other byte as before. -/
theorem ptByte_ecbBlock (k off : Nat) : (s.ecbBlock k).ptByte off =
    if off / 16 = k then (decryptBlock s.engine.isbox s.engine.ks (s.ctBlock k))[off % 16]
    else s.ptByte off := by
  rw [State.ecbBlock, ptByte_setPtBlock]
  by_cases hk : off / 16 = k
  · subst hk
    have e : off - 16 * (off / 16) = off % 16 := by omega
    simp [e, Nat.mod_lt, Nat.mul_div_le]
  · rw [if_neg hk]
    split
    · rw [if_neg (by omega)]
      rfl
    · rfl

/-- What the block loop leaves in PT: below its end the decrypted blocks, from there on every byte as before. -/
theorem ptByte_ecbBlocks (n off : Nat) : (s.ecbBlocks n).ptByte off =
    if off < 16 * n then (decryptBlock s.engine.isbox s.engine.ks (s.ctBlock (off / 16)))[off % 16]
    else s.ptByte off := by
  induction n with
  | zero => simp
  | succ n ih =>
    rw [ecbBlocks_succ, ptByte_ecbBlock, ih, ctBlock_congr (ecbBlocks_ct s n) (ecbBlocks_resets s n), ecbBlocks_isbox,
      ecbBlocks_ks]
    by_cases h1 : off / 16 = n
    · subst h1
      rw [if_pos rfl, if_pos (by omega)]
    · rw [if_neg h1]
      exact if_congr (by omega) rfl rfl

/-- What the block loop leaves in ST: the last decrypted block. -/
theorem ecbBlocks_st (n : Nat) : (s.ecbBlocks (n + 1)).engine.st =
    decryptBlock s.engine.isbox s.engine.ks (s.ctBlock n) := by
  rw [ecbBlocks_succ, ecbBlock_frame, ctBlock_congr (ecbBlocks_ct s n) (ecbBlocks_resets s n), ecbBlocks_isbox,
    ecbBlocks_ks]

end Sys2Proof.Machine
end

section
/-! PROOFS. The reset values (10_state.md R43) and the invariant of 10_state.md R42: each state operation keeps it, so
each command, host write and step does. -/

namespace Sys2Proof.Machine

/-! ## Reset -/

/-- Settles O12: the engine after a reset is `Engine.reset`, whose fields are R43's values. -/
theorem resetLeavesTheTableOfResetValues : Obligations.ResetLeavesTheTableOfResetValues := by
  intro e he
  have he : e = Engine.reset := by
    obtain rfl | ⟨s, t, rest, hp, hs, rfl⟩ := he
    · rfl
    · rw [step_cons hp] at hs
      rw [← Host.Outcome.next.inj hs, afterReset_engine]
  subst he
  decide

/-- The invariant right after a reset, whatever the capacity: no flag is set and nothing is listed. -/
theorem stateInv_of_engine_reset {s : State} (he : s.engine = Engine.reset)
    (hc : Config.dcapLegal s.dcap = true) : StateInv s where
  tables h := by simp [he, Engine.reset] at h
  rcon h := by simp [he, Engine.reset] at h
  schedule h := by simp [he, Engine.reset] at h
  plenBlocks := by rw [he]; rfl
  plenFits := by rw [he]; exact Nat.zero_le _
  plenSchedule h := by simp [he, Engine.reset] at h
  capacity := hc
  ctForm := by rw [he]; exact ⟨rfl, rfl⟩
  ptForm := by rw [he]; exact ⟨rfl, rfl⟩
  ptWritten off h := by simp [he, Engine.reset] at h

/-- Settles O43: the capacity 4096 is legal. -/
theorem resetStateMeetsTheInvariant : Obligations.ResetStateMeetsTheInvariant :=
  stateInv_of_engine_reset rfl (by decide)

/-! ## Operations that keep the invariant

The stores are stated for arbitrary values, so that no proof unfolds a table build or the cipher. -/

/-- The invariant reads neither the operand, result and length registers, nor ERR, KEY, ST, or the port. -/
theorem StateInv.of_unread {s t : State} (h : StateInv s)
    (e : t = { s with
      engine := { s.engine with opa := t.engine.opa, opb := t.engine.opb, res := t.engine.res, err := t.engine.err,
                                klen := t.engine.klen, clen := t.engine.clen, key := t.engine.key, st := t.engine.st }
      resets := t.resets, pending := t.pending, reply := t.reply }) : StateInv t := by
  rw [e]
  exact ⟨h.tables, h.rcon, h.schedule, h.plenBlocks, h.plenFits, h.plenSchedule, h.capacity, h.ctForm, h.ptForm,
    h.ptWritten⟩

section
variable {s : State} (h : StateInv s)
include h

theorem StateInv.setRes (v : Word) : StateInv (s.setRes v) := h.of_unread rfl

theorem StateInv.setSt (v : Block) : StateInv (s.setSt v) := h.of_unread rfl

theorem StateInv.succeed : StateInv s.succeed := h.of_unread rfl

theorem StateInv.fail (c : ResultCode) : StateInv (s.fail c) := h.of_unread rfl

theorem StateInv.answering (rest : List HostEvent) (r : Reply) : StateInv (s.answering rest r) := h.of_unread rfl

/-- Right tables may be stored at any time: a schedule in use was expanded with the same ones. -/
theorem StateInv.setTables {p : Table × Table} (hp : SboxTables p.1 p.2) : StateInv (s.setTables p).setSv :=
  { h with
    tables := fun _ => hp
    schedule := fun hk => by
      obtain ⟨hs, hr, key, e⟩ := h.schedule hk
      obtain ⟨e1, -⟩ := (h.tables hs).unique hp
      exact ⟨rfl, hr, key, by rw [e1] at e; exact e⟩ }

/-- Right constants may be stored at any time. -/
theorem StateInv.setRcon {r : RconTable} (hr : RconValues r) : StateInv (s.setRcon r).setRv :=
  { h with
    rcon := fun _ => hr
    schedule := fun hk => by
      obtain ⟨hs, hv, key, e⟩ := h.schedule hk
      have e1 := (h.rcon hv).unique hr
      exact ⟨hs, rfl, key, by rw [e1] at e; exact e⟩ }

/-- A schedule expanded with valid tables may be stored at any time. -/
theorem StateInv.setKs {ks : Schedule} {key : Block} (hs : s.engine.sv = true) (hr : s.engine.rv = true)
    (e : ks = expandKey s.engine.sbox s.engine.rcon key) : StateInv (s.setKs ks).setKv :=
  { h with
    schedule := fun _ => ⟨hs, hr, key, e⟩
    plenSchedule := fun _ => rfl }

/-- Plaintext of whole blocks, all of it written, may be shown while a schedule is valid. -/
theorem StateInv.setPlaintext {m : Memory} {st : Block} {v : Word} (hk : s.engine.kv = true)
    (hv : v.toNat % 16 = 0) (hc : v.toNat ≤ s.dcap) (hwf : m.wf = true) (hb : m.below s.dcap = true)
    (hw : ∀ off, off < v.toNat → (m.read off).isSome = true) :
    StateInv (State.setPlen { s with engine := { s.engine with st := st, pt := m } } v) :=
  { h with
    plenBlocks := hv
    plenFits := hc
    plenSchedule := fun _ => hk
    ptForm := ⟨hwf, hb⟩
    ptWritten := hw }

/-- SBGEN's build keeps the invariant. -/
theorem StateInv.buildSbox : StateInv s.buildSbox.setSv := h.setTables (buildSboxTables_valid _)

/-- RCGEN's build keeps the invariant. -/
theorem StateInv.buildRcon : StateInv s.buildRcon.setRv := h.setRcon (buildRcon_values _)

/-- The lazy S-box build keeps the invariant. -/
theorem StateInv.ensureSbox : StateInv s.ensureSbox := by
  obtain ⟨-, e⟩ | ⟨-, e⟩ := ensureSbox_cases s <;> rw [e]
  · exact h
  · exact h.buildSbox

/-- The lazy RCON build keeps the invariant. -/
theorem StateInv.ensureRcon : StateInv s.ensureRcon := by
  obtain ⟨-, e⟩ | ⟨-, e⟩ := ensureRcon_cases s <;> rw [e]
  · exact h
  · exact h.buildRcon

/-- The key expansion keeps the invariant. -/
theorem StateInv.expandSchedule : StateInv s.expandSchedule :=
  h.ensureSbox.ensureRcon.setKs (by simp) (by simp) rfl

/-- ECBDEC's blocks and its new PLEN keep the invariant while a schedule is valid and the blocks fit. -/
theorem StateInv.ecbBlocks {v : Word} (hk : s.engine.kv = true) (hv : v.toNat % 16 = 0) (hc : v.toNat ≤ s.dcap) :
    StateInv ((s.ecbBlocks (v.toNat / 16)).setPlen v) := by
  have hn : 16 * (v.toNat / 16) = v.toNat := by omega
  obtain ⟨hwf, hbelow⟩ := h.ptForm
  rw [ecbBlocks_frame]
  exact h.setPlaintext hk hv hc (ecbBlocks_pt_wf s _ hwf) (ecbBlocks_pt_below s (hn.trans_le hc) hbelow)
    fun off ho => ecbBlocks_pt_isSome s (ho.trans_eq hn.symm)

/-- A command keeps the invariant. -/
theorem StateInv.exec {i : Instr} {t : State} (hx : Machine.exec i s = .next t) : StateInv t := by
  cases effect_of_exec hx with
  | failed _ c => exact h.fail c
  | res _ v => exact (h.setRes v).succeed
  | substituted _ v => exact (h.ensureSbox.setRes v).succeed
  | sbgen => exact h.buildSbox.succeed
  | rcgen => exact h.buildRcon.succeed
  | keyexp => exact h.expandSchedule.succeed
  | st _ v => exact (h.setSt v).succeed
  | isubb v => exact (h.ensureSbox.setSt v).succeed
  | ecbdec hm hc => exact (h.expandSchedule.ecbBlocks (by simp) hm (by simpa using hc)).succeed

/-- What a host write stores keeps the invariant. -/
theorem StateInv.hostStored {t : State} (hs : HostStored s t) : StateInv t := by
  cases hs with
  | fields => exact h.of_unread rfl
  | ctByte off v ho =>
    obtain ⟨hwf, hbelow⟩ := h.ctForm
    exact { h with ctForm := ⟨Memory.wf_write _ off v hwf, Memory.below_write _ off _ v ho hbelow⟩ }

end

/-- Settles O44: a step is a reset, or a command or host write on a state that meets the invariant too. -/
theorem stepKeepsTheInvariant : Obligations.StepKeepsTheInvariant := by
  intro s t h hs
  cases stepEffect_of_step hs with
  | idle => exact h
  | reset => exact stateInv_of_engine_reset rfl h.capacity
  | read id off n v rest => exact h.answering rest _
  | stored id off v rest t _ hst => exact (h.answering rest _).hostStored hst
  | command w rest i t _ _ hx => exact (h.answering rest _).exec hx
  | illegal w rest => exact (h.answering rest _).fail _

end Sys2Proof.Machine
end

section
/-! PROOFS. Storage behind the gates (10_state.md R43, 20_memory.md R65 (b)) is unobservable: each state operation,
command and host event takes two states of the same view to two states of the same view. -/

namespace Sys2Proof.Machine

/-! ## State operations -/

section
variable {s t : State} (h : SameView s t)
include h

theorem SameView.setRes (v : Word) : SameView (s.setRes v) (t.setRes v) :=
  { h with registers := by simp [h.registers] }

theorem SameView.setSt (v : Block) : SameView (s.setSt v) (t.setSt v) :=
  { h with buffers := by simp [h.buffers] }

theorem SameView.succeed : SameView s.succeed t.succeed :=
  { h with registers := by simp [h.registers] }

theorem SameView.fail (c : ResultCode) : SameView (s.fail c) (t.fail c) :=
  { h with registers := by simp [h.registers] }

theorem SameView.setCtByte (off : Nat) (v : Byte) : SameView (s.setCtByte off v) (t.setCtByte off v) :=
  { h with buffers := by simp [h.buffers] }

theorem SameView.setReply (r : Reply) : SameView { s with reply := some r } { t with reply := some r } :=
  { h with outside := by simp [h.outside] }

theorem SameView.setPending (rest : List HostEvent) : SameView { s with pending := rest } { t with pending := rest } :=
  { h with outside := by simp [h.outside] }

/-- A reset forgets all that the two states differ in. -/
theorem SameView.afterReset : SameView s.afterReset t.afterReset where
  registers := ⟨rfl, rfl, rfl, rfl, rfl, rfl, rfl⟩
  flags := ⟨rfl, rfl, rfl⟩
  buffers := ⟨rfl, rfl, rfl⟩
  sboxes _ := ⟨rfl, rfl⟩
  rcon _ := rfl
  schedule _ := rfl
  plaintext off _ := ptByte_congr (s := t.afterReset) (t := s.afterReset) rfl (by simp [h.outside]) off
  outside := by simp [h.outside]

theorem SameView.setTables (p : Table × Table) : SameView (s.setTables p).setSv (t.setTables p).setSv :=
  { h with
    flags := by simp [h.flags]
    sboxes := fun _ => ⟨rfl, rfl⟩ }

theorem SameView.setRcon (r : RconTable) : SameView (s.setRcon r).setRv (t.setRcon r).setRv :=
  { h with
    flags := by simp [h.flags]
    rcon := fun _ => rfl }

theorem SameView.setKs (ks : Schedule) : SameView (s.setKs ks).setKv (t.setKs ks).setKv :=
  { h with
    flags := by simp [h.flags]
    schedule := fun _ => rfl }

/-- New plaintext, the same below the new PLEN. -/
theorem SameView.setPlaintext {st st' : Block} {m m' : Memory} {v : Word} (hst : st = st')
    (hm : ∀ off, off < v.toNat → State.ptByte { s with engine := { s.engine with st := st, pt := m } } off =
      State.ptByte { t with engine := { t.engine with st := st', pt := m' } } off) :
    SameView (State.setPlen { s with engine := { s.engine with st := st, pt := m } } v)
      (State.setPlen { t with engine := { t.engine with st := st', pt := m' } } v) :=
  { h with
    registers := by simp [h.registers]
    buffers := by simp [h.buffers, hst]
    plaintext := hm }

/-- The S-box build does not depend on what the arrays held (R131). -/
theorem SameView.buildSbox : SameView s.buildSbox.setSv t.buildSbox.setSv := by
  unfold State.buildSbox
  rw [buildSboxTables_congr (t.engine.sbox, t.engine.isbox) (s.engine.sbox, s.engine.isbox)]
  exact h.setTables _

/-- Nor does the RCON build (R151). -/
theorem SameView.buildRcon : SameView s.buildRcon.setRv t.buildRcon.setRv := by
  unfold State.buildRcon
  rw [buildRcon_congr t.engine.rcon s.engine.rcon]
  exact h.setRcon _

theorem SameView.ensureSbox : SameView s.ensureSbox t.ensureSbox := by
  obtain ⟨hsv, -⟩ := h.flags
  unfold State.ensureSbox
  rw [← hsv]
  split
  · exact h
  · exact h.buildSbox

theorem SameView.ensureRcon : SameView s.ensureRcon t.ensureRcon := by
  obtain ⟨-, hrv, -⟩ := h.flags
  unfold State.ensureRcon
  rw [← hrv]
  split
  · exact h
  · exact h.buildRcon

/-- The expansion reads KEY and the two tables that its lazy builds make valid. -/
theorem SameView.expandSchedule : SameView s.expandSchedule t.expandSchedule := by
  have h' := h.ensureSbox.ensureRcon
  obtain ⟨hsbox, -⟩ := h'.sboxes (by simp)
  obtain ⟨hkey, -⟩ := h'.buffers
  unfold State.expandSchedule
  dsimp only
  rw [hsbox, h'.rcon (by simp), hkey]
  exact h'.setKs _

/-- CT is observable, so its blocks are the same. -/
theorem SameView.ctBlock (k : Nat) : s.ctBlock k = t.ctBlock k := by
  obtain ⟨-, -, hct⟩ := h.buffers
  obtain ⟨-, hresets, -⟩ := h.outside
  exact ctBlock_congr hct hresets k

/-- The block loop reads ISBOX and KS, both valid, and CT; PLEN shows only bytes that it writes. -/
theorem SameView.ecbBlocks (hs : s.engine.sv = true) (hk : s.engine.kv = true) {v : Word} {n : Nat}
    (hn : v.toNat ≤ 16 * n) : SameView ((s.ecbBlocks n).setPlen v) ((t.ecbBlocks n).setPlen v) := by
  obtain ⟨-, hisbox⟩ := h.sboxes hs
  obtain ⟨-, hst, -⟩ := h.buffers
  have hd (k : Nat) : decryptBlock s.engine.isbox s.engine.ks (s.ctBlock k) =
      decryptBlock t.engine.isbox t.engine.ks (t.ctBlock k) := by
    rw [hisbox, h.schedule hk, h.ctBlock]
  have hst' : (s.ecbBlocks n).engine.st = (t.ecbBlocks n).engine.st := by
    cases n with
    | zero => exact hst
    | succ n => rw [ecbBlocks_st, ecbBlocks_st, hd]
  have hpt (off : Nat) (ho : off < v.toNat) : (s.ecbBlocks n).ptByte off = (t.ecbBlocks n).ptByte off := by
    have hoff : off < 16 * n := by omega
    rw [ptByte_ecbBlocks, ptByte_ecbBlocks, if_pos hoff, if_pos hoff, hd]
  rw [ecbBlocks_frame s, ecbBlocks_frame t] at hpt ⊢
  exact h.setPlaintext hst' hpt

end

/-! ## Gates -/

/-- Only a value behind an open gate is seen. -/
theorem gatedByte_congr {gate : Bool} {v w : Byte} (e : gate = true → v = w) : gatedByte gate v = gatedByte gate w := by
  cases gate with
  | false => rfl
  | true => rw [e rfl]

/-- Only a value behind an open gate is seen. -/
theorem gatedWord_congr {gate : Bool} {v w : Word} (e : gate = true → v = w) : gatedWord gate v = gatedWord gate w := by
  cases gate with
  | false => rfl
  | true => rw [e rfl]

/-! ## Commands -/

/-- Two outcomes that are next states of the same view. -/
def SameAnswer (o p : Host.Outcome State Fault Refusal) : Prop :=
  ∃ s t, o = .next s ∧ p = .next t ∧ SameView s t

theorem SameView.next {s t : State} (h : SameView s t) : SameAnswer (.next s) (.next t) := ⟨s, t, rfl, rfl, h⟩

section
variable {s t : State} (h : SameView s t)
include h

/-- ARK and DECBLK read KS only while `KV = 1`, and DECBLK reads ISBOX, valid with `KV`. Every other command
makes the tables it reads valid first. -/
theorem SameView.exec (hk : s.engine.kv = true → s.engine.sv = true) (i : Instr) :
    SameAnswer (exec i s) (exec i t) := by
  obtain ⟨hopa, hopb, -, hklen, hclen, -, -⟩ := h.registers
  obtain ⟨-, -, hkv⟩ := h.flags
  obtain ⟨-, hst, -⟩ := h.buffers
  obtain ⟨hdcap, -⟩ := h.outside
  have hb := h.ensureSbox
  obtain ⟨hsbox, hisbox⟩ := hb.sboxes (by simp)
  obtain ⟨hopa', -⟩ := hb.registers
  obtain ⟨-, hst', -⟩ := hb.buffers
  cases i with
  | gfmul =>
    refine SameView.next ?_
    rw [hopa, hopb]
    exact (h.setRes _).succeed
  | gfinv =>
    refine SameView.next ?_
    rw [hopa]
    exact (h.setRes _).succeed
  | sbgen => exact h.buildSbox.succeed.next
  | subw =>
    refine SameView.next ?_
    rw [hsbox, hopa']
    exact (hb.setRes _).succeed
  | isubw =>
    refine SameView.next ?_
    rw [hisbox, hopa']
    exact (hb.setRes _).succeed
  | rcgen => exact h.buildRcon.succeed.next
  | keyexp =>
    show SameAnswer (execKeyexp s) (execKeyexp t)
    unfold execKeyexp
    rw [hklen]
    split
    · exact (h.fail _).next
    · exact h.expandSchedule.succeed.next
  | ark r =>
    show SameAnswer (execArk r s) (execArk r t)
    unfold execArk
    by_cases hr : r.toNat ≤ 10
    · rw [dif_pos hr, dif_pos hr, ← hkv]
      split
      · rw [hst, h.schedule ‹_›]
        exact (h.setSt _).succeed.next
      · exact (h.fail _).next
    · rw [dif_neg hr, dif_neg hr]
      exact (h.fail _).next
  | ishr =>
    refine SameView.next ?_
    rw [hst]
    exact (h.setSt _).succeed
  | isubb =>
    refine SameView.next ?_
    rw [hisbox, hst']
    exact (hb.setSt _).succeed
  | imixc =>
    refine SameView.next ?_
    rw [hst]
    exact (h.setSt _).succeed
  | decblk =>
    show SameAnswer (execDecblk s) (execDecblk t)
    unfold execDecblk
    rw [← hkv]
    split
    · obtain ⟨-, hisbox⟩ := h.sboxes (hk ‹_›)
      rw [hst, h.schedule ‹_›, hisbox]
      exact (h.setSt _).succeed.next
    · exact (h.fail _).next
  | ecbdec =>
    show SameAnswer (execEcbdec s) (execEcbdec t)
    unfold execEcbdec
    rw [hklen, hclen, hdcap]
    split
    · exact (h.fail _).next
    · split
      · exact (h.fail _).next
      · split
        · exact (h.fail _).next
        · exact (h.expandSchedule.ecbBlocks (by simp) (by simp) (by omega)).succeed.next

/-- Which command a word stands for does not depend on the state. -/
theorem SameView.runCommand (hk : s.engine.kv = true → s.engine.sv = true) (w : Word) :
    SameAnswer (runCommand w s) (runCommand w t) := by
  unfold Machine.runCommand
  cases decode w with
  | ok i => exact h.exec hk i
  | error e => exact (h.fail _).next

/-! ## The host port -/

/-- A location reads the same: what the gates hide reads as zero (R65 (b)). -/
theorem SameView.readLocation (r : Region) (off : Nat) : readLocation s r off = readLocation t r off := by
  obtain ⟨hsv, hrv, hkv⟩ := h.flags
  obtain ⟨hkey, hst, hct⟩ := h.buffers
  obtain ⟨hdcap, hresets, -⟩ := h.outside
  obtain ⟨-, -, -, -, -, hplen, -⟩ := h.registers
  cases r with
  | reg => simp only [Machine.readLocation, regRead, statusWord, errWord, h.registers, h.flags, hdcap]
  | key => simp only [Machine.readLocation, hkey]
  | st => simp only [Machine.readLocation, hst]
  | ct => simp only [Machine.readLocation, ctByte_congr hct hresets]
  | pt =>
    simp only [Machine.readLocation, ← hplen]
    exact congrArg Value.byte (gatedByte_congr fun ho => h.plaintext off (of_decide_eq_true ho))
  | sbox =>
    simp only [Machine.readLocation, ← hsv]
    exact congrArg Value.byte (gatedByte_congr fun hg => by rw [(h.sboxes hg).1])
  | isbox =>
    simp only [Machine.readLocation, ← hsv]
    exact congrArg Value.byte (gatedByte_congr fun hg => by rw [(h.sboxes hg).2])
  | rcon =>
    simp only [Machine.readLocation, ← hrv]
    exact congrArg Value.word (gatedWord_congr fun hg => by rw [h.rcon hg])
  | ks =>
    simp only [Machine.readLocation, ← hkv]
    exact congrArg Value.word (gatedWord_congr fun hg => by rw [h.schedule hg])

end

/-- Two write actions that are the same command, or stores that leave the same view. -/
inductive SameAction : WriteAction → WriteAction → Prop where
  | stored {s t : State} : SameView s t → SameAction (.stored s) (.stored t)
  | command (w : Word) : SameAction (.command w) (.command w)

section
variable {s t : State} (h : SameView s t)
include h

theorem SameView.regWrite (off : Nat) (w : Word) : SameView (regWrite s off w) (regWrite t off w) := by
  unfold Machine.regWrite
  split
  case h_5 => exact h
  all_goals exact { h with registers := by simp [h.registers] }

/-- A write does the same on both. -/
theorem SameView.writeLocation (r : Region) (off : Nat) (v : Value) :
    SameAction (writeLocation s r off v) (writeLocation t r off v) := by
  cases r <;> cases v
  case reg.word w =>
    unfold Machine.writeLocation
    dsimp only
    split
    · exact .command w
    · exact .stored (h.regWrite off w)
  case key.byte b =>
    exact .stored { h with buffers := by simp [h.buffers] }
  case st.byte b =>
    exact .stored { h with buffers := by simp [h.buffers] }
  case ct.byte b => exact .stored (h.setCtByte off b)
  all_goals exact .stored h

/-- An allowed write is allowed on both. -/
theorem SameView.hostWrite {id off : Nat} {v : Value} {a : WriteAction} (hw : hostWrite s id off v = .ok a) :
    ∃ b, hostWrite t id off v = .ok b ∧ SameAction a b := by
  obtain ⟨r, hr, hwr, rfl⟩ := hostWrite_ok_iff.1 hw
  obtain ⟨hdcap, -⟩ := h.outside
  rw [hdcap] at hr
  exact ⟨_, hostWrite_ok_iff.2 ⟨r, hr, hwr, rfl⟩, h.writeLocation r off v⟩

/-- A read answers the same on both. -/
theorem SameView.hostRead (id off : Nat) (n : Width) : hostRead s id off n = hostRead t id off n := by
  simp only [Machine.hostRead, h.outside, h.readLocation]

/-- An event that is served on the one is served on the other. -/
theorem SameView.serve (hk : s.engine.kv = true → s.engine.sv = true) {ev : HostEvent} {s' : State}
    (hs : serve ev s = .next s') : ∃ t', serve ev t = .next t' ∧ SameView s' t' := by
  obtain ⟨rfl, rfl⟩ | ⟨id, off, n, v, rfl, hr, rfl⟩ | ⟨id, off, v, u, rfl, hw, rfl⟩ | ⟨id, off, v, w, rfl, hw, hc⟩ :=
    serve_next_cases hs
  · exact ⟨_, rfl, h.afterReset⟩
  · rw [h.hostRead] at hr
    exact ⟨{ t with reply := some (.value v) }, by simp only [Machine.serve, hr], h.setReply _⟩
  · obtain ⟨_, hw', hu⟩ := h.hostWrite hw
    cases hu with
    | @stored _ u' hu => exact ⟨{ u' with reply := some .done }, by simp only [Machine.serve, hw'], hu.setReply _⟩
  · obtain ⟨_, hw', hu⟩ := h.hostWrite hw
    cases hu
    obtain ⟨a, b, ha, hb, hab⟩ := (h.setReply .done).runCommand hk w
    obtain rfl := Host.Outcome.next.inj (ha.symm.trans hc)
    exact ⟨b, by simp only [Machine.serve, hw', hb], hab⟩

end

/-- Settles O47: the two states have the same events waiting, and serve the oldest in step. -/
theorem hiddenStorageIsUnobservable : Obligations.HiddenStorageIsUnobservable := by
  intro s t s' h hk hs
  obtain ⟨-, -, hpending, -⟩ := h.outside
  cases hp : s.pending with
  | nil =>
    obtain rfl := Host.Outcome.next.inj ((step_nil hp).symm.trans hs)
    exact ⟨t, step_nil (hpending.symm.trans hp), h⟩
  | cons ev rest =>
    rw [step_cons hp] at hs
    rw [step_cons (hpending.symm.trans hp)]
    exact (h.setPending rest).serve hk hs

end Sys2Proof.Machine
end

section
/-! PROOFS. Which commands set a flag (10_state.md R25), and which storage each command and host write may change (R44). -/

namespace Sys2Proof.Machine

/-! ## Flags -/

section
variable {s t : State} {i : Instr} (h : Effect s i t)
include h

/-- A flag is set after a command exactly when it was, or when the command succeeded and is one of R25's. -/
theorem Effect.flags :
    (t.engine.sv = true ↔ s.engine.sv = true ∨ (t.engine.err = .ok ∧
      (i = .sbgen ∨ i = .subw ∨ i = .isubw ∨ i = .keyexp ∨ i = .isubb ∨ i = .ecbdec))) ∧
    (t.engine.rv = true ↔ s.engine.rv = true ∨ (t.engine.err = .ok ∧ (i = .rcgen ∨ i = .keyexp ∨ i = .ecbdec))) ∧
    (t.engine.kv = true ↔ s.engine.kv = true ∨ (t.engine.err = .ok ∧ (i = .keyexp ∨ i = .ecbdec))) := by
  cases h with
  | failed _ c hc => simp [hc]
  | res _ v hi => obtain rfl | rfl := hi <;> simp
  | substituted _ v hi => obtain rfl | rfl := hi <;> simp
  | sbgen => simp [State.buildSbox]
  | rcgen => simp [State.buildRcon]
  | keyexp => simp
  | st _ v hi => obtain ⟨r, rfl⟩ | rfl | rfl | rfl := hi <;> simp
  | isubb v => simp
  | ecbdec => simp

end

/-- A step that is no reset clears no flag. -/
theorem StepEffect.flags_mono {s t : State} (h : StepEffect s t) (hr : s.pending.head? ≠ some .reset) :
    (s.engine.sv = true → t.engine.sv = true) ∧ (s.engine.rv = true → t.engine.rv = true) ∧
    (s.engine.kv = true → t.engine.kv = true) := by
  cases h with
  | idle => exact ⟨id, id, id⟩
  | reset rest hp => exact absurd (by rw [hp]; rfl) hr
  | read => exact ⟨id, id, id⟩
  | stored _ _ _ _ _ _ hs => cases hs <;> exact ⟨id, id, id⟩
  | command w rest i t _ _ hx =>
    obtain ⟨hsv, hrv, hkv⟩ := (effect_of_exec hx).flags
    exact ⟨fun hf => hsv.2 (.inl hf), fun hf => hrv.2 (.inl hf), fun hf => hkv.2 (.inl hf)⟩
  | illegal => exact ⟨id, id, id⟩

/-- Settles O40: the commands by their effects, the steps by what each can do. -/
theorem flagsAreSetByTheListedCommandsAndClearedByResetOnly :
    Obligations.FlagsAreSetByTheListedCommandsAndClearedByResetOnly :=
  ⟨fun _ _ _ h => (effect_of_exec h).flags, fun _ _ h hr => (stepEffect_of_step h).flags_mono hr⟩

/-! ## Write rights -/

section
variable {s t : State} {i : Instr} (h : Effect s i t)
include h

/-- All that any command may change. -/
theorem Effect.frame :
    t = { s with engine := { s.engine with
      res := t.engine.res, st := t.engine.st, err := t.engine.err, sbox := t.engine.sbox, isbox := t.engine.isbox,
      sv := t.engine.sv, rcon := t.engine.rcon, rv := t.engine.rv, ks := t.engine.ks, kv := t.engine.kv,
      pt := t.engine.pt, plen := t.engine.plen } } := by
  cases h with
  | failed => rfl
  | res => rfl
  | substituted => rw [ensureSbox_frame]; rfl
  | sbgen => simp only [State.buildSbox, State.setTables, State.setSv, State.succeed]
  | rcgen => simp only [State.buildRcon, State.setRcon, State.setRv, State.succeed]
  | keyexp => rw [expandSchedule_spec]; rfl
  | st => rfl
  | isubb => rw [ensureSbox_frame]; rfl
  | ecbdec => rw [ecbBlocks_frame, expandSchedule_spec]; rfl

/-- Which commands may change ST, RES, the tables, RCON, the schedule and the plaintext (R44); the lazy builds store
only while the flag is 0. -/
theorem Effect.writers :
    ((∃ r, i = .ark r) ∨ i = .ishr ∨ i = .isubb ∨ i = .imixc ∨ i = .decblk ∨ i = .ecbdec ∨
      t.engine.st = s.engine.st) ∧
    (i = .gfmul ∨ i = .gfinv ∨ i = .subw ∨ i = .isubw ∨ t.engine.res = s.engine.res) ∧
    (i = .sbgen ∨ (s.engine.sv = false ∧ (i = .subw ∨ i = .isubw ∨ i = .keyexp ∨ i = .isubb ∨ i = .ecbdec)) ∨
      (t.engine.sbox = s.engine.sbox ∧ t.engine.isbox = s.engine.isbox ∧ t.engine.sv = s.engine.sv)) ∧
    (i = .rcgen ∨ (s.engine.rv = false ∧ (i = .keyexp ∨ i = .ecbdec)) ∨
      (t.engine.rcon = s.engine.rcon ∧ t.engine.rv = s.engine.rv)) ∧
    (i = .keyexp ∨ i = .ecbdec ∨ (t.engine.ks = s.engine.ks ∧ t.engine.kv = s.engine.kv)) ∧
    (i = .ecbdec ∨ (t.engine.pt = s.engine.pt ∧ t.engine.plen = s.engine.plen)) := by
  cases h with
  | failed => simp
  | res _ v hi => obtain rfl | rfl := hi <;> simp
  | substituted _ v hi => obtain rfl | rfl := hi <;> simp [ensureSbox_kept s]
  | sbgen => simp [State.buildSbox]
  | rcgen => simp [State.buildRcon]
  | keyexp => simp [ensureSbox_kept s, ensureRcon_kept s]
  | st _ v hi => obtain ⟨r, rfl⟩ | rfl | rfl | rfl := hi <;> simp
  | isubb => simp [ensureSbox_kept s]
  | ecbdec => simp [ensureSbox_kept s, ensureRcon_kept s]

/-- No command changes a byte of PT at or above CLEN. -/
theorem Effect.ptByte_above {off : Nat} (ho : s.engine.clen.toNat ≤ off) : t.ptByte off = s.ptByte off := by
  have hresets : t.resets = s.resets := by rw [h.frame]
  obtain ⟨-, -, -, -, -, rfl | ⟨hpt, -⟩⟩ := h.writers
  · cases h with
    | failed => rfl
    | res _ _ hi => simp at hi
    | substituted _ _ hi => simp at hi
    | st _ _ hi => simp at hi
    | ecbdec hm =>
      calc State.ptByte _ off
          = (s.expandSchedule.ecbBlocks (s.engine.clen.toNat / 16)).ptByte off := ptByte_congr (by simp) (by simp) off
        _ = s.expandSchedule.ptByte off := by rw [ptByte_ecbBlocks, if_neg (by omega)]
        _ = s.ptByte off := ptByte_congr (by simp) (by simp) off
  · exact ptByte_congr hpt hresets off

end

/-- All that a host transaction may change, unless it is a CMD write. -/
theorem StepEffect.host_frame {s t : State} {ev : HostEvent} {rest : List HostEvent} (h : StepEffect s t)
    (hp : s.pending = ev :: rest) (hr : ev ≠ .reset) (hc : ∀ w, ev ≠ .transaction (.write 0 0x00 (.word w))) :
    t.engine = { s.engine with opa := t.engine.opa, opb := t.engine.opb, klen := t.engine.klen,
                               clen := t.engine.clen, key := t.engine.key, st := t.engine.st, ct := t.engine.ct } := by
  have heq {ev' rest'} (hp' : s.pending = ev' :: rest') : ev = ev' := (List.cons.inj (hp.symm.trans hp')).1
  cases h with
  | idle => rfl
  | reset _ hp' => exact absurd (heq hp') hr
  | read => rfl
  | stored _ _ _ _ _ _ hs => cases hs <;> rfl
  | command w _ _ _ hp' => exact absurd (heq hp') (hc w)
  | illegal w _ _ hp' => exact absurd (heq hp') (hc w)

/-- Settles O41: host transactions by what a step can do, commands by their effects. -/
theorem commandsAndHostWriteOnlyWhatTheyMay : Obligations.CommandsAndHostWriteOnlyWhatTheyMay := by
  refine ⟨fun s t ev rest hp hr hc hs => (stepEffect_of_step hs).host_frame hp hr hc, fun i s t hx => ?_⟩
  have h := effect_of_exec hx
  obtain ⟨hst, hres, htables, hrcon, hks, hpt⟩ := h.writers
  have hresets : t.resets = s.resets := by rw [h.frame]
  exact ⟨by rw [h.frame]; simp only [and_self], ctByte_congr (by rw [h.frame]) hresets,
    by rw [h.frame]; simp only [and_self], hst, hres, htables, hrcon, hks,
    hpt.imp_right fun ⟨e, hplen⟩ => ⟨e, hplen, ptByte_congr e hresets⟩, fun off => h.ptByte_above⟩

end Sys2Proof.Machine
end

section
/-! PROOFS. Which events are served (20_memory.md R60, R63, R64): the spec's region map against the model's, and what
a step, and a run, does with an event that the map allows or forbids. -/

namespace Sys2Proof.Machine

open Ref

/-! ## The region map -/

/-- Ids and regions correspond; ids 9 and above are no region's (R60). -/
theorem regionOf_cases (id : Nat) :
    (∃ r : Region, id = r.id ∧ regionOf id = some r) ∨ (8 < id ∧ regionOf id = none) := by
  match id with
  | 0 => exact .inl ⟨.reg, rfl, rfl⟩
  | 1 => exact .inl ⟨.key, rfl, rfl⟩
  | 2 => exact .inl ⟨.st, rfl, rfl⟩
  | 3 => exact .inl ⟨.ct, rfl, rfl⟩
  | 4 => exact .inl ⟨.pt, rfl, rfl⟩
  | 5 => exact .inl ⟨.sbox, rfl, rfl⟩
  | 6 => exact .inl ⟨.isbox, rfl, rfl⟩
  | 7 => exact .inl ⟨.rcon, rfl, rfl⟩
  | 8 => exact .inl ⟨.ks, rfl, rfl⟩
  | n + 9 => exact .inr ⟨by omega, rfl⟩

@[simp] theorem regionOf_id (r : Region) : regionOf r.id = some r := by cases r <;> rfl

theorem Region.id_le (r : Region) : r.id ≤ 8 := by cases r <;> decide

@[simp] theorem regionSize_id (dcap : Nat) (r : Region) : regionSize dcap r.id = r.size dcap := by cases r <;> rfl

/-- The word regions are those whose unit is a word (R60, R63). -/
theorem isWordRegion_id (r : Region) : isWordRegion r.id ↔ r.unit = .word := by
  cases r <;> simp [isWordRegion, Region.id, Region.unit]

/-- The width and alignment rule R63, in the model's terms: the access size is the region's unit, and divides the
offset. -/
theorem width_rule_iff (r : Region) (off : Nat) (n : Width) :
    (isWordRegion r.id ∧ (n.bytes ≠ 4 ∨ off % 4 ≠ 0)) ∨ (¬isWordRegion r.id ∧ n.bytes ≠ 1) ↔
      n ≠ r.unit ∨ off % n.bytes ≠ 0 := by
  rw [isWordRegion_id]
  cases r.unit <;> cases n <;> simp [Width.bytes, Nat.mod_one]

/-- An access is allowed exactly when R63 and R64 do not forbid it. -/
theorem checkAccess_ok_iff_not_badAccess {dcap id off : Nat} {n : Width} :
    (∃ r, checkAccess dcap id off n = .ok r) ↔ ¬BadAccess dcap id off n.bytes := by
  simp only [checkAccess_ok_iff, BadAccess]
  obtain ⟨r, rfl, -⟩ | ⟨hid, hnone⟩ := regionOf_cases id
  · simp only [width_rule_iff, regionOf_id, Option.some.injEq, exists_eq_left', regionSize_id, not_or, not_lt, r.id_le,
      ne_eq, not_not, true_and]
  · simp [hid, hnone]

/-- The id of the region that an allowed access names. -/
theorem eq_id_of_checkAccess {dcap id off : Nat} {n : Width} {r : Region} (h : checkAccess dcap id off n = .ok r) :
    id = r.id := by
  obtain ⟨hr, -⟩ := (checkAccess_ok_iff ..).1 h
  obtain ⟨q, hq, hr'⟩ | ⟨-, hnone⟩ := regionOf_cases id
  · rwa [Option.some.inj (hr.symm.trans hr')]
  · cases hr.symm.trans hnone

/-- Where an access is allowed, the host may write exactly the locations that R64 does not list as read-only. -/
theorem hostWritable_iff_not_readOnly {dcap id off : Nat} {n : Width} {r : Region}
    (h : checkAccess dcap id off n = .ok r) : hostWritable r off = true ↔ ¬ReadOnly id off := by
  obtain rfl := eq_id_of_checkAccess h
  obtain ⟨-, hsize, hn, halign⟩ := (checkAccess_ok_iff ..).1 h
  cases r with
  | reg =>
    subst hn
    simp only [Region.size, Region.unit, Width.bytes] at hsize halign
    simp only [hostWritable, Bool.or_eq_true, beq_iff_eq, ReadOnly, Region.id, true_and]
    omega
  | _ => simp [hostWritable, ReadOnly, Region.id]

/-- A forbidden read (R64). -/
theorem illFormed_read (dcap id off : Nat) (n : Width) :
    IllFormed dcap (.transaction (.read id off n)) ↔ BadAccess dcap id off n.bytes := by
  cases n <;> exact Iff.rfl

/-- A forbidden write (R64). -/
theorem illFormed_write (dcap id off : Nat) (v : Value) :
    IllFormed dcap (.transaction (.write id off v)) ↔ BadAccess dcap id off v.width.bytes ∨ ReadOnly id off := by
  cases v <;> exact Iff.rfl

/-! ## Reads and writes that are served -/

/-- A read is no HostError exactly when the access is allowed; it answers the location's value. -/
theorem hostRead_ok_iff {s : State} {id off : Nat} {n : Width} {v : Value} :
    hostRead s id off n = .ok v ↔ ∃ r, checkAccess s.dcap id off n = .ok r ∧ readLocation s r off = v := by
  unfold hostRead
  cases checkAccess s.dcap id off n <;> simp

/-- The reads that are served. -/
theorem exists_hostRead_ok_iff {s : State} {id off : Nat} {n : Width} :
    (∃ v, hostRead s id off n = .ok v) ↔ ¬IllFormed s.dcap (.transaction (.read id off n)) := by
  rw [illFormed_read, ← checkAccess_ok_iff_not_badAccess]
  simp only [hostRead_ok_iff]
  exact ⟨fun ⟨_, r, hr, _⟩ => ⟨r, hr⟩, fun ⟨r, hr⟩ => ⟨_, r, hr, rfl⟩⟩

/-- A write is not forbidden exactly when the access is allowed and the location is writable. -/
theorem not_illFormed_write_iff {dcap id off : Nat} {v : Value} :
    ¬IllFormed dcap (.transaction (.write id off v)) ↔
      ∃ r, checkAccess dcap id off v.width = .ok r ∧ hostWritable r off = true := by
  rw [illFormed_write, not_or, ← checkAccess_ok_iff_not_badAccess]
  constructor
  · rintro ⟨⟨r, hr⟩, hro⟩
    exact ⟨r, hr, (hostWritable_iff_not_readOnly hr).2 hro⟩
  · rintro ⟨r, hr, hw⟩
    exact ⟨⟨r, hr⟩, (hostWritable_iff_not_readOnly hr).1 hw⟩

/-- The writes that are served. -/
theorem exists_hostWrite_ok_iff {s : State} {id off : Nat} {v : Value} :
    (∃ a, hostWrite s id off v = .ok a) ↔ ¬IllFormed s.dcap (.transaction (.write id off v)) := by
  rw [not_illFormed_write_iff]
  simp only [hostWrite_ok_iff]
  exact ⟨fun ⟨_, r, hr, hw, _⟩ => ⟨r, hr, hw⟩, fun ⟨r, hr, hw⟩ => ⟨_, r, hr, hw, rfl⟩⟩

/-! ## Every event that is not forbidden gives a next state -/

/-- No command faults or is refused (60_exceptions.md R237). -/
theorem exec_next (i : Instr) (s : State) : ∃ t, exec i s = .next t := by
  cases i with
  | keyexp => obtain ⟨-, e⟩ | ⟨-, e⟩ := execKeyexp_cases s <;> exact ⟨_, e⟩
  | ark r => obtain ⟨-, e⟩ | ⟨_, -, e⟩ | ⟨-, -, e⟩ := execArk_cases s r <;> exact ⟨_, e⟩
  | decblk => obtain ⟨-, e⟩ | ⟨-, e⟩ := execDecblk_cases s <;> exact ⟨_, e⟩
  | ecbdec => obtain ⟨-, e⟩ | ⟨-, -, e⟩ | ⟨-, -, -, e⟩ | ⟨-, -, -, e⟩ := execEcbdec_cases s <;> exact ⟨_, e⟩
  | _ => exact ⟨_, rfl⟩

/-- Nor does a write of any word to CMD (30_encoding.md R97). -/
theorem runCommand_next (w : Word) (s : State) : ∃ t, runCommand w s = .next t := by
  obtain ⟨i, -, e⟩ | ⟨_, -, e⟩ := runCommand_cases w s
  · rw [e]
    exact exec_next i s
  · exact ⟨_, e⟩

/-- A read that is no HostError is answered, and changes nothing else (R65). -/
theorem serve_read {s : State} {id off : Nat} {n : Width} {v : Value} (h : hostRead s id off n = .ok v) :
    serve (.transaction (.read id off n)) s = .next { s with reply := some (.value v) } := by
  simp only [serve, h]

/-- A write that stores is answered OK. -/
theorem serve_stored {s t : State} {id off : Nat} {v : Value} (h : hostWrite s id off v = .ok (.stored t)) :
    serve (.transaction (.write id off v)) s = .next { t with reply := some .done } := by
  simp only [serve, h]

/-- A forbidden event is a HostError. -/
theorem serve_of_illFormed {s : State} {ev : HostEvent} (h : IllFormed s.dcap ev) :
    ∃ r, serve ev s = .fault (.hostError r) := by
  match ev with
  | .reset => exact h.elim
  | .transaction (.read id off n) =>
    cases hr : hostRead s id off n with
    | error e => exact ⟨e, by simp only [serve, hr]⟩
    | ok v => exact absurd h (exists_hostRead_ok_iff.1 ⟨v, hr⟩)
  | .transaction (.write id off v) =>
    cases hw : hostWrite s id off v with
    | error e => exact ⟨e, by simp only [serve, hw]⟩
    | ok a => exact absurd h (exists_hostWrite_ok_iff.1 ⟨a, hw⟩)

/-- Every other event is served. -/
theorem serve_of_not_illFormed {s : State} {ev : HostEvent} (h : ¬IllFormed s.dcap ev) :
    ∃ t, serve ev s = .next t := by
  match ev with
  | .reset => exact ⟨_, rfl⟩
  | .transaction (.read id off n) =>
    obtain ⟨v, hr⟩ := exists_hostRead_ok_iff.2 h
    exact ⟨_, serve_read hr⟩
  | .transaction (.write id off v) =>
    obtain ⟨a, hw⟩ := exists_hostWrite_ok_iff.2 h
    cases a with
    | stored t => exact ⟨_, serve_stored hw⟩
    | command w => simpa only [serve, hw] using runCommand_next w _

/-- Settles O7: a step serves the oldest event, and what is served is what the region map allows. -/
theorem hostErrorExactlyWhenForbidden : Obligations.HostErrorExactlyWhenForbidden := by
  intro s ev rest hp
  rw [step_cons hp]
  exact ⟨serve_of_illFormed (s := { s with pending := rest }), serve_of_not_illFormed (s := { s with pending := rest })⟩

/-! ## Steps and runs -/

/-- A command changes nothing outside the engine. -/
theorem Effect.outside {s t : State} {i : Instr} (h : Effect s i t) :
    t.pending = s.pending ∧ t.dcap = s.dcap ∧ t.resets = s.resets ∧ t.reply = s.reply := by
  rw [h.frame]
  exact ⟨rfl, rfl, rfl, rfl⟩

/-- What a host write stores is inside the engine. -/
theorem HostStored.outside {s t : State} (h : HostStored s t) :
    t.pending = s.pending ∧ t.dcap = s.dcap ∧ t.resets = s.resets ∧ t.reply = s.reply := by
  cases h <;> exact ⟨rfl, rfl, rfl, rfl⟩

/-- What a step does outside the engine while an event waits. -/
theorem StepEffect.outside {s t : State} {ev : HostEvent} {rest : List HostEvent} (h : StepEffect s t)
    (hp : s.pending = ev :: rest) :
    t.pending = rest ∧ t.dcap = s.dcap ∧
      ((ev = .reset ∧ t.resets = s.resets + 1 ∧ t.reply = none) ∨
       (ev ≠ .reset ∧ t.resets = s.resets ∧ t.reply.isSome = true)) := by
  have hev {ev' rest'} (hp' : s.pending = ev' :: rest') : ev = ev' ∧ rest = rest' := by
    simpa using hp.symm.trans hp'
  cases h with
  | idle hp' => cases hp.symm.trans hp'
  | reset _ hp' =>
    obtain ⟨rfl, rfl⟩ := hev hp'
    exact ⟨rfl, rfl, .inl ⟨rfl, rfl, rfl⟩⟩
  | read _ _ _ _ _ hp' =>
    obtain ⟨rfl, rfl⟩ := hev hp'
    exact ⟨rfl, rfl, .inr ⟨nofun, rfl, rfl⟩⟩
  | stored _ _ _ _ _ hp' hs =>
    obtain ⟨rfl, rfl⟩ := hev hp'
    obtain ⟨hpending, hdcap, hresets, hreply⟩ := hs.outside
    exact ⟨hpending, hdcap, .inr ⟨nofun, hresets, by rw [hreply]; rfl⟩⟩
  | command _ _ _ _ hp' _ hx =>
    obtain ⟨rfl, rfl⟩ := hev hp'
    obtain ⟨hpending, hdcap, hresets, hreply⟩ := (effect_of_exec hx).outside
    exact ⟨hpending, hdcap, .inr ⟨nofun, hresets, by rw [hreply]; rfl⟩⟩
  | illegal _ _ _ hp' =>
    obtain ⟨rfl, rfl⟩ := hev hp'
    exact ⟨rfl, rfl, .inr ⟨nofun, rfl, rfl⟩⟩

/-- Settles O6: an idle step keeps the state, and every other is one of the ways a step can end. -/
theorem stepServesOneEventInOrder : Obligations.StepServesOneEventInOrder := fun _ _ h =>
  ⟨fun hp => Host.Outcome.next.inj (h.symm.trans (step_nil hp)), fun _ _ hp => (stepEffect_of_step h).outside hp⟩

/-- A run's first step, when it gives a next state. -/
theorem run_succ_of_step {s t : State} (h : step s = .next t) (n : Nat) :
    Sys2Proof.core.run (n + 1) s = Sys2Proof.core.run n t := by
  simp only [Host.Core.run, show Sys2Proof.core.step s = .next t from h]

/-- An idle machine stays as it is, however long it runs (60_exceptions.md R236). -/
theorem run_of_idle {s : State} (h : s.pending = []) (n : Nat) : Sys2Proof.core.run n s = .next s := by
  induction n with
  | zero => rfl
  | succ n ih => rw [run_succ_of_step (step_nil h), ih]

/-- A run is safe exactly when it is after its first step. -/
theorem safeRun_iff_of_step {s t : State} (h : step s = .next t) : SafeRun s ↔ SafeRun t := by
  refine ⟨fun hs n f => run_succ_of_step h n ▸ hs (n + 1) f, fun ht n f => ?_⟩
  cases n with
  | zero => exact nofun
  | succ n => exact run_succ_of_step h n ▸ ht n f

/-- A run whose first step faults is not safe. -/
theorem not_safeRun_of_fault {s : State} {f : Fault} (h : step s = .fault f) : ¬SafeRun s := by
  refine fun hs => hs 1 f ?_
  simp only [Host.Core.run, show Sys2Proof.core.step s = .fault f from h]

/-- Settles O8, by induction on the events that wait: a forbidden one faults, and any other leaves the later ones and
the capacity, so which of them are forbidden, as they were. -/
theorem safeRunExactlyWhenNoTransactionForbidden : Obligations.SafeRunExactlyWhenNoTransactionForbidden := by
  intro s
  induction hp : s.pending generalizing s with
  | nil =>
    have hsafe : SafeRun s := fun n f => by rw [run_of_idle hp]; exact nofun
    simpa using hsafe
  | cons ev rest ih =>
    obtain ⟨hfault, hserved⟩ := hostErrorExactlyWhenForbidden s ev rest hp
    by_cases hev : IllFormed s.dcap ev
    · obtain ⟨_, hstep⟩ := hfault hev
      simp [not_safeRun_of_fault hstep, hev]
    · obtain ⟨t, hstep⟩ := hserved hev
      obtain ⟨hpending, hdcap, -⟩ := (stepEffect_of_step hstep).outside hp
      rw [safeRun_iff_of_step hstep, ih t hpending, hdcap]
      simp [hev]

end Sys2Proof.Machine
end

section
/-! PROOFS. What a read answers, what a write stores, and that a read after a write answers what was written
(20_memory.md R65, R69). -/

namespace Sys2Proof.Machine

open Ref

/-! ## Allowed accesses -/

/-- A byte access is allowed at every offset of a byte region. -/
theorem checkAccess_byte {dcap id off : Nat} {r : Region} (hr : regionOf id = some r) (hu : r.unit = .byte)
    (ho : off < r.size dcap) : checkAccess dcap id off .byte = .ok r :=
  (checkAccess_ok_iff ..).2 ⟨hr, ho, hu.symm, Nat.mod_one off⟩

/-- A word access is allowed at every word of a word region. -/
theorem checkAccess_word {dcap id k : Nat} {r : Region} (hr : regionOf id = some r) (hu : r.unit = .word)
    (hk : 4 * k + 4 ≤ r.size dcap) : checkAccess dcap id (4 * k) .word = .ok r :=
  (checkAccess_ok_iff ..).2 ⟨hr, hk, hu.symm, Nat.mul_mod_right 4 k⟩

/-! ## Values as read -/

/-- An element of an array, as the port looks it up. -/
theorem getD_toList {α : Type} {n : Nat} (v : Vector α n) (k : Fin n) (d : α) : v.toList.getD k.val d = v[k] := by
  simp

/-- Word `k` of a word array stands at offset `4 * k` (R62). -/
theorem getD_toList_word {n : Nat} (v : Vector Word n) (k : Fin n) :
    v.toList.getD (4 * k.val / 4) 0#32 = v[k] := by
  rw [Nat.mul_div_cancel_left _ (by decide), getD_toList]

/-- The three flags as STATUS's low bits, whatever they are. -/
theorem flags_getElem : ∀ kv rv sv : Bool,
    let v : Word := (BitVec.ofBool kv ++ BitVec.ofBool rv ++ BitVec.ofBool sv).setWidth 32
    v[0] = sv ∧ v[1] = rv ∧ v[2] = kv := by
  decide

/-- STATUS as read has the bits of R27. -/
theorem isStatus_statusWord (e : Engine) : IsStatus e (statusWord e) := by
  obtain ⟨h0, h1, h2⟩ := flags_getElem e.kv e.rv e.sv
  exact ⟨h0, h1, h2, fun i _ hi => by simp [statusWord, hi]⟩

/-- R27 gives every bit of STATUS. -/
theorem isStatus_unique {e : Engine} {v w : Word} (hv : IsStatus e v) (hw : IsStatus e w) : v = w := by
  obtain ⟨v0, v1, v2, v3⟩ := hv
  obtain ⟨w0, w1, w2, w3⟩ := hw
  refine BitVec.eq_of_getElem_eq fun i hi => ?_
  match i with
  | 0 => exact v0.trans w0.symm
  | 1 => exact v1.trans w1.symm
  | 2 => exact v2.trans w2.symm
  | i + 3 => exact (v3 _ hi (by omega)).trans (w3 _ hi (by omega)).symm

/-- ERR as read is the code's number (R28). -/
theorem errWord_eq_codeNumber (e : Engine) : errWord e = codeNumber e.err := by
  unfold errWord
  cases e.err <;> rfl

/-- An open gate shows the value. -/
theorem gatedByte_open {gate : Bool} (h : gate = true) (v : Byte) : gatedByte gate v = v := by rw [h]; rfl

/-- A shut gate shows zero. -/
theorem gatedByte_shut {gate : Bool} (h : gate = false) (v : Byte) : gatedByte gate v = 0#8 := by rw [h]; rfl

/-- An open gate shows the value. -/
theorem gatedWord_open {gate : Bool} (h : gate = true) (v : Word) : gatedWord gate v = v := by rw [h]; rfl

/-- A shut gate shows zero. -/
theorem gatedWord_shut {gate : Bool} (h : gate = false) (v : Word) : gatedWord gate v = 0#32 := by rw [h]; rfl

/-- What R65 (b) and (c) say a read returns is what the port answers. -/
theorem hostRead_of_reads {s : State} {id off : Nat} {n : Width} {v : Value} (h : Reads s id off n v) :
    hostRead s id off n = .ok v := by
  rw [hostRead_ok_iff]
  cases h with
  | cmd => exact ⟨.reg, rfl, rfl⟩
  | status v hv => exact ⟨.reg, rfl, congrArg Value.word (isStatus_unique (isStatus_statusWord _) hv)⟩
  | err => exact ⟨.reg, rfl, congrArg Value.word (errWord_eq_codeNumber _)⟩
  | opa => exact ⟨.reg, rfl, rfl⟩
  | opb => exact ⟨.reg, rfl, rfl⟩
  | res => exact ⟨.reg, rfl, rfl⟩
  | klen => exact ⟨.reg, rfl, rfl⟩
  | clen => exact ⟨.reg, rfl, rfl⟩
  | plen => exact ⟨.reg, rfl, rfl⟩
  | cap => exact ⟨.reg, rfl, rfl⟩
  | key k => exact ⟨.key, checkAccess_byte rfl rfl k.isLt, congrArg Value.byte (getD_toList _ k _)⟩
  | st k => exact ⟨.st, checkAccess_byte rfl rfl k.isLt, congrArg Value.byte (getD_toList _ k _)⟩
  | ct off ho => exact ⟨.ct, checkAccess_byte rfl rfl ho, rfl⟩
  | pt off ho hg => exact ⟨.pt, checkAccess_byte rfl rfl ho, congrArg Value.byte (gatedByte_open (decide_eq_true hg) _)⟩
  | ptGated off ho hg =>
    exact ⟨.pt, checkAccess_byte rfl rfl ho, congrArg Value.byte (gatedByte_shut (decide_eq_false hg.not_gt) _)⟩
  | sbox k hg =>
    exact ⟨.sbox, checkAccess_byte rfl rfl k.isLt,
      congrArg Value.byte ((gatedByte_open hg _).trans (getD_toList _ k _))⟩
  | sboxGated k hg => exact ⟨.sbox, checkAccess_byte rfl rfl k.isLt, congrArg Value.byte (gatedByte_shut hg _)⟩
  | isbox k hg =>
    exact ⟨.isbox, checkAccess_byte rfl rfl k.isLt,
      congrArg Value.byte ((gatedByte_open hg _).trans (getD_toList _ k _))⟩
  | isboxGated k hg => exact ⟨.isbox, checkAccess_byte rfl rfl k.isLt, congrArg Value.byte (gatedByte_shut hg _)⟩
  | rcon k hg =>
    exact ⟨.rcon, checkAccess_word rfl rfl (Nat.mul_le_mul_left 4 k.isLt),
      congrArg Value.word ((gatedWord_open hg _).trans (getD_toList_word _ k))⟩
  | rconGated k hg =>
    exact ⟨.rcon, checkAccess_word rfl rfl (Nat.mul_le_mul_left 4 k.isLt), congrArg Value.word (gatedWord_shut hg _)⟩
  | ks k hg =>
    exact ⟨.ks, checkAccess_word rfl rfl (Nat.mul_le_mul_left 4 k.isLt),
      congrArg Value.word ((gatedWord_open hg _).trans (getD_toList_word _ k))⟩
  | ksGated k hg =>
    exact ⟨.ks, checkAccess_word rfl rfl (Nat.mul_le_mul_left 4 k.isLt), congrArg Value.word (gatedWord_shut hg _)⟩

/-- A read does not depend on the events that wait. -/
theorem hostRead_setPending (s : State) (rest : List HostEvent) (id off : Nat) (n : Width) :
    hostRead { s with pending := rest } id off n = hostRead s id off n := rfl

/-- Settles O9: each way R65 lists of reading a location is what the port answers, and a served read stores nothing. -/
theorem readAnswersStoredOrGatedValue : Obligations.ReadAnswersStoredOrGatedValue := by
  intro s rest id off n v hp h
  rw [step_cons hp]
  exact serve_read ((hostRead_setPending s rest id off n).trans (hostRead_of_reads h))

/-! ## Writes -/

/-- The registers that the host may write, with their offsets: CMD, OPA, OPB, KLEN and CLEN (R64). -/
theorem hostWritable_reg_iff (off : Nat) :
    hostWritable .reg off = true ↔ off = 0x00 ∨ off = 0x0C ∨ off = 0x10 ∨ off = 0x18 ∨ off = 0x1C := by
  simp [hostWritable, or_assoc]

/-- A value written to a byte region that may be accessed is a byte at one of its offsets. -/
theorem byte_of_checkAccess {dcap id off : Nat} {v : Value} {r : Region} (h : checkAccess dcap id off v.width = .ok r)
    (hu : r.unit = .byte) : ∃ b, v = .byte b ∧ off < r.size dcap := by
  obtain ⟨-, hsize, hn, -⟩ := (checkAccess_ok_iff ..).1 h
  cases v with
  | byte b => exact ⟨b, rfl, hsize⟩
  | word w => cases hn.trans hu

/-- A value written to a word region is a word. -/
theorem word_of_checkAccess {dcap id off : Nat} {v : Value} {r : Region} (h : checkAccess dcap id off v.width = .ok r)
    (hu : r.unit = .word) : ∃ w, v = .word w := by
  obtain ⟨-, -, hn, -⟩ := (checkAccess_ok_iff ..).1 h
  cases v with
  | byte b => cases hn.trans hu
  | word w => exact ⟨w, rfl⟩

/-- One byte of a block set: it holds the value, and the others are as before. -/
theorem block_setIfInBounds (b : Block) (k : Fin 16) (v : Byte) :
    (b.setIfInBounds k.val v)[k] = v ∧ ∀ j : Fin 16, j ≠ k → (b.setIfInBounds k.val v)[j] = b[j] := by
  refine ⟨by simp, fun j hj => ?_⟩
  have hne : k.val ≠ j.val := fun e => hj (Fin.ext e.symm)
  simp [hne]

/-- What an allowed write other than to CMD does, whatever events wait: it stores as R65 (d) says. -/
theorem writeLocation_stores {s : State} {id off : Nat} {v : Value} {r : Region} (rest : List HostEvent)
    (h : checkAccess s.dcap id off v.width = .ok r) (hw : hostWritable r off = true) (hc : ¬(id = 0 ∧ off = 0x00)) :
    ∃ t, Stores s id off v t ∧
      writeLocation { s with pending := rest } r off v = .stored { t with pending := rest } := by
  obtain rfl := eq_id_of_checkAccess h
  cases r with
  | reg =>
    obtain ⟨w, rfl⟩ := word_of_checkAccess h rfl
    obtain rfl | rfl | rfl | rfl | rfl := (hostWritable_reg_iff off).1 hw
    · exact absurd ⟨rfl, rfl⟩ hc
    · exact ⟨_, .opa w, rfl⟩
    · exact ⟨_, .opb w, rfl⟩
    · exact ⟨_, .klen w, rfl⟩
    · exact ⟨_, .clen w, rfl⟩
  | key =>
    obtain ⟨b, rfl, ho⟩ := byte_of_checkAccess h rfl
    obtain ⟨hk, hother⟩ := block_setIfInBounds s.engine.key ⟨off, ho⟩ b
    exact ⟨_, .key ⟨off, ho⟩ b _ hk hother, rfl⟩
  | st =>
    obtain ⟨b, rfl, ho⟩ := byte_of_checkAccess h rfl
    obtain ⟨hk, hother⟩ := block_setIfInBounds s.engine.st ⟨off, ho⟩ b
    exact ⟨_, .st ⟨off, ho⟩ b _ hk hother, rfl⟩
  | ct =>
    obtain ⟨b, rfl, ho⟩ := byte_of_checkAccess h rfl
    exact ⟨_, .ct off b _ ho (Memory.read_write_same _ off b) fun a ha => Memory.read_write_other _ b ha, rfl⟩
  | _ => cases hw

/-- Settles O10: the write is allowed, its region and width leave only the stores that R65 (d) lists. -/
theorem writeStoresAndDoesNothingElse : Obligations.WriteStoresAndDoesNothingElse := by
  intro s rest id off v hp hallowed hc
  obtain ⟨r, hr, hw⟩ := not_illFormed_write_iff.1 hallowed
  obtain ⟨t, hst, ht⟩ := writeLocation_stores rest hr hw hc
  refine ⟨t, hst, ?_⟩
  rw [step_cons hp]
  exact serve_stored (s := { s with pending := rest }) (hostWrite_ok_iff.2 ⟨r, hr, hw, ht⟩)

/-! ## Reads after writes -/

/-- What a write stored is what a read of that location returns next (R69 (a)). -/
theorem reads_answering_of_stores {s t : State} {id off : Nat} {v : Value} (h : Stores s id off v t)
    (rest : List HostEvent) (reply : Reply) : Reads (t.answering rest reply) id off v.width v := by
  cases h with
  | opa v => exact .opa
  | opb v => exact .opb
  | klen v => exact .klen
  | clen v => exact .clen
  | key k v b hk => exact hk ▸ .key k
  | st k v b hk => exact hk ▸ .st k
  | ct off v m ho hm =>
    have hread := Reads.ct (s := State.answering { s with engine := { s.engine with ct := m } } rest reply) off ho
    rwa [show State.ctByte _ off = v by simp only [State.ctByte, State.answering, hm, Option.getD_some]] at hread

/-- Settles O11: the write was served, so it was allowed and stored, and what it stored is what the read answers. -/
theorem readAfterWriteAnswersTheValue : Obligations.ReadAfterWriteAnswersTheValue := by
  intro s t rest id off v hp hc hs
  have hallowed : ¬IllFormed s.dcap (.transaction (.write id off v)) := fun hbad => by
    obtain ⟨_, hf⟩ := (hostErrorExactlyWhenForbidden s _ _ hp).1 hbad
    cases hf.symm.trans hs
  obtain ⟨u, hu, hstep⟩ := writeStoresAndDoesNothingElse s _ id off v hp hallowed hc
  obtain rfl := Host.Outcome.next.inj (hstep.symm.trans hs)
  exact ⟨_, readAnswersStoredOrGatedValue _ rest id off v.width v rfl (reads_answering_of_stores hu _ _), rfl, rfl, rfl⟩

end Sys2Proof.Machine
end

section
/-! PROOFS. ECBDEC's blocks in any order (20_memory.md R73, 45_ecb_driver.md R205). -/

namespace Sys2Proof.Machine

/-- One block changes no input of another: its decryption is the same before and after. -/
theorem decryptBlock_ecbBlock (s : State) (k j : Nat) :
    decryptBlock (s.ecbBlock k).engine.isbox (s.ecbBlock k).engine.ks ((s.ecbBlock k).ctBlock j) =
      decryptBlock s.engine.isbox s.engine.ks (s.ctBlock j) := by
  rw [ctBlock_congr (t := s.ecbBlock k) (s := s) (by rw [ecbBlock_frame]) (by rw [ecbBlock_frame]), ecbBlock_frame]

/-- What some blocks leave in PT, whatever their order: each of them decrypted, and every other byte as before. -/
theorem ptByte_foldl_ecbBlock (l : List Nat) (s : State) (off : Nat) : (l.foldl State.ecbBlock s).ptByte off =
    if off / 16 ∈ l then (decryptBlock s.engine.isbox s.engine.ks (s.ctBlock (off / 16)))[off % 16]
    else s.ptByte off := by
  induction l generalizing s with
  | nil => simp
  | cons k l ih =>
    rw [List.foldl_cons, ih, decryptBlock_ecbBlock, ptByte_ecbBlock]
    by_cases hk : off / 16 = k
    · subst hk
      simp
    · simp [hk]

/-- Settles O37: two orders have the same blocks, and only these decide what PT holds. -/
theorem blockOrderCannotBeObservedInPt : Obligations.BlockOrderCannotBeObservedInPt := by
  intro s n order horder off
  rw [State.ecbBlocks, ptByte_foldl_ecbBlock, ptByte_foldl_ecbBlock]
  simp only [horder.mem_iff]

end Sys2Proof.Machine
end

section
/-! PROOFS. Commands and their words (30_encoding.md R90 to R97): decoding and encoding agree, and what a CMD write
does with a word of the opcode table and with any other. -/

namespace Sys2Proof

/-! ## The fields of a command word -/

/-- A word is its format-N fields (R91). -/
theorem append_formatN_fields (w : Word) : zeroFieldN w ++ opcodeField w = w :=
  (BitVec.extractLsb'_append_extractLsb'_eq_extractLsb' rfl).trans BitVec.extractLsb'_eq_self

/-- Format N's zero field is format R's zero field and round (R91). -/
theorem append_zeroFieldR_rndField (w : Word) : zeroFieldR w ++ rndField w = zeroFieldN w :=
  BitVec.extractLsb'_append_extractLsb'_eq_extractLsb' rfl

/-- Format N's fields fix a word. -/
theorem word_ext_formatN {v w : Word} (hop : opcodeField v = opcodeField w) (hzero : zeroFieldN v = zeroFieldN w) :
    v = w := by
  rw [← append_formatN_fields v, ← append_formatN_fields w, hop, hzero]

/-- Format R's fields fix a word. -/
theorem word_ext_formatR {v w : Word} (hop : opcodeField v = opcodeField w) (hrnd : rndField v = rndField w)
    (hzero : zeroFieldR v = zeroFieldR w) : v = w :=
  word_ext_formatN hop <| by rw [← append_zeroFieldR_rndField v, ← append_zeroFieldR_rndField w, hrnd, hzero]

/-- R93's mask for ARK keeps the opcode. -/
theorem opcodeField_and_arkMask (w : Word) : opcodeField (w &&& 0xFFFFF0FF#32) = opcodeField w :=
  BitVec.extractLsb'_and.trans BitVec.and_allOnes

/-- R93's mask for ARK clears the round. -/
theorem rndField_and_arkMask (w : Word) : rndField (w &&& 0xFFFFF0FF#32) = 0#4 :=
  BitVec.extractLsb'_and.trans BitVec.and_zero

/-- R93's mask for ARK keeps the zero field. -/
theorem zeroFieldR_and_arkMask (w : Word) : zeroFieldR (w &&& 0xFFFFF0FF#32) = zeroFieldR w :=
  BitVec.extractLsb'_and.trans BitVec.and_allOnes

/-- R93's ARK row is matched exactly by the words with ARK's opcode and nothing in the zero field. -/
theorem and_arkMask_eq_iff (w : Word) :
    w &&& 0xFFFFF0FF#32 = 0x00000030#32 ↔ opcodeField w = 0x30#8 ∧ zeroFieldR w = 0#20 := by
  rw [← opcodeField_and_arkMask w, ← zeroFieldR_and_arkMask w]
  constructor
  · intro h
    rw [h]
    decide
  · rintro ⟨hop, hzero⟩
    exact word_ext_formatR hop (rndField_and_arkMask w) hzero

/-! ## Decoding by the fields -/

/-- A word with ARK's opcode decodes by its zero field and its round (R92, R94). -/
theorem decode_ok_iff_of_ark {w : Word} {i : Instr} (hop : opcodeField w = 0x30#8) :
    decode w = .ok i ↔ zeroFieldR w = 0#20 ∧ (rndField w).toNat ≤ Config.nr ∧ i = .ark (rndField w) := by
  rw [decode, if_pos hop]
  by_cases hzero : zeroFieldR w = 0#20
  · by_cases hrnd : Config.nr < (rndField w).toNat
    · simp [hzero, hrnd]
    · simp [hzero, hrnd, not_lt.1 hrnd, eq_comm]
  · simp [hzero]

/-- A word with any other opcode decodes by its zero field and its opcode (R94). -/
theorem decode_ok_iff_of_not_ark {w : Word} {i : Instr} (hop : opcodeField w ≠ 0x30#8) :
    decode w = .ok i ↔ zeroFieldN w = 0#24 ∧ decodeFormatN (opcodeField w).toNat = .ok i := by
  rw [decode, if_neg hop]
  by_cases hzero : zeroFieldN w = 0#24
  · simp [hzero]
  · simp [hzero]

/-- A format-N opcode is looked up to the well-formed command that has it. -/
theorem opcode_of_decodeFormatN {op : Nat} {i : Instr} (h : decodeFormatN op = .ok i) :
    i.opcode.toNat = op ∧ i.WellFormed := by
  unfold decodeFormatN at h
  split at h <;> cases h <;> exact ⟨rfl, rfl⟩

/-! ## Decode and encode -/

/-- The opcode and the zero fields of every command word (R91). -/
theorem encodingShape (i : Instr) : Laws.EncodingShape.Statement i := by
  cases i with
  | gfmul => exact Laws.EncodingShape.gfmul
  | gfinv => exact Laws.EncodingShape.gfinv
  | sbgen => exact Laws.EncodingShape.sbgen
  | subw => exact Laws.EncodingShape.subw
  | isubw => exact Laws.EncodingShape.isubw
  | rcgen => exact Laws.EncodingShape.rcgen
  | keyexp => exact Laws.EncodingShape.keyexp
  | ark rnd => exact Laws.EncodingShape.ark rnd
  | ishr => exact Laws.EncodingShape.ishr
  | isubb => exact Laws.EncodingShape.isubb
  | imixc => exact Laws.EncodingShape.imixc
  | decblk => exact Laws.EncodingShape.decblk
  | ecbdec => exact Laws.EncodingShape.ecbdec

/-- An ARK word carries its round in bits 11:8 (R92). -/
theorem rndField_encode_ark : ∀ rnd : BitVec 4, rndField (encode (.ark rnd)) = rnd := by
  decide

/-- The word of a well-formed command decodes to it. -/
theorem decode_encode {i : Instr} (h : i.WellFormed) : decode (encode i) = .ok i := by
  cases i with
  | ark rnd =>
    obtain ⟨hop, hzero, -⟩ := encodingShape (.ark rnd)
    rw [decode_ok_iff_of_ark hop, rndField_encode_ark]
    exact ⟨hzero, of_decide_eq_true h, rfl⟩
  | _ => rfl

/-- A word that decodes is the word of its command, which is well formed. -/
theorem encode_of_decode {w : Word} {i : Instr} (h : decode w = .ok i) : i.WellFormed ∧ encode i = w := by
  obtain ⟨hop, hzeroR, hzeroN⟩ := encodingShape i
  by_cases hark : opcodeField w = 0x30#8
  · obtain ⟨hzero, hrnd, rfl⟩ := (decode_ok_iff_of_ark hark).1 h
    exact ⟨decide_eq_true hrnd,
      word_ext_formatR (hop.trans hark.symm) (rndField_encode_ark _) (hzeroR.trans hzero.symm)⟩
  · obtain ⟨hzero, hd⟩ := (decode_ok_iff_of_not_ark hark).1 h
    obtain ⟨hi, hwf⟩ := opcode_of_decodeFormatN hd
    have hopw : i.opcode = opcodeField w := BitVec.eq_of_toNat_eq hi
    exact ⟨hwf, word_ext_formatN (hop.trans hopw) ((hzeroN (hopw ▸ hark)).trans hzero.symm)⟩

/-- Settles O2: a word's fields are those of its command's word, and the fields fix the word. -/
theorem decodeAndEncodeAgree : Obligations.DecodeAndEncodeAgree := fun _ _ =>
  ⟨encode_of_decode, fun ⟨hwf, he⟩ => he ▸ decode_encode hwf⟩

/-! ## The opcode table -/

/-- R93's twelve format-N rows. -/
def formatNCommands : List Instr :=
  [.gfmul, .gfinv, .sbgen, .subw, .isubw, .rcgen, .keyexp, .ishr, .isubb, .imixc, .decblk, .ecbdec]

/-- The 23 legal commands: those of format N, and ARK of rounds 0 to 10. -/
def legalCommands : List Instr :=
  formatNCommands ++ (List.range 11).map fun r => Instr.ark (BitVec.ofNat 4 r)

/-- The legal commands are the well-formed terms (R92). -/
theorem mem_legalCommands_iff (i : Instr) : i ∈ legalCommands ↔ i.WellFormed := by
  cases i with
  | ark rnd =>
    revert rnd
    decide
  | _ => decide

/-- The words of the legal commands are the words that decode. -/
theorem mem_map_encode_legalCommands_iff (w : Word) :
    w ∈ legalCommands.map encode ↔ ∃ i : Instr, decode w = .ok i := by
  simp only [List.mem_map, mem_legalCommands_iff, decodeAndEncodeAgree w]

/-- A well-formed command is selected by its own word alone. -/
theorem decode_ok_iff_eq_encode {w : Word} {i : Instr} (h : i.WellFormed) : decode w = .ok i ↔ w = encode i := by
  rw [decodeAndEncodeAgree w i, and_iff_right h, eq_comm]

/-- A word decodes to ARK exactly when R93 selects the row. -/
theorem decode_ok_ark_iff {w : Word} {rnd : BitVec 4} : decode w = .ok (.ark rnd) ↔
    w &&& 0xFFFFF0FF#32 = 0x00000030#32 ∧ (rndField w).toNat ≤ Config.nr ∧ rnd = rndField w := by
  rw [and_arkMask_eq_iff]
  by_cases hop : opcodeField w = 0x30#8
  · simp [decode_ok_iff_of_ark hop, hop]
  · simp only [hop, false_and, iff_false]
    intro h
    obtain ⟨-, rfl⟩ := encode_of_decode h
    exact hop (encodingShape _).1

/-- Settles O1, command by command: of R93's rows only the command's own remains, and that row selects its words. -/
theorem decodeSelectsExactlyTheTableRow : Obligations.DecodeSelectsExactlyTheTableRow := by
  refine ⟨⟨legalCommands.map encode, by decide, by decide, mem_map_encode_legalCommands_iff⟩, fun w i => ?_⟩
  cases i with
  | ark rnd =>
    simp only [reduceCtorEq, and_false, or_false, false_or, Instr.ark.injEq]
    exact decode_ok_ark_iff
  | _ =>
    simp only [reduceCtorEq, and_false, or_false, false_or, and_true]
    exact decode_ok_iff_eq_encode rfl

/-- Settles O3: the sample words are the commands' own. -/
theorem sampleWordsDecodeAsListed : Obligations.SampleWordsDecodeAsListed :=
  ⟨decode_encode (i := .gfmul) rfl, decode_encode (i := .isubw) rfl, decode_encode (i := .keyexp) rfl,
    decode_encode (i := .ark 10) rfl, decode_encode (i := .decblk) rfl, decode_encode (i := .ecbdec) rfl⟩

end Sys2Proof

namespace Sys2Proof.Machine

/-! ## CMD writes -/

/-- A write of a word to CMD runs that word as a command (R97). -/
theorem hostWrite_cmd (s : State) (w : Word) : hostWrite s 0 0 (.word w) = .ok (.command w) :=
  hostWrite_ok_iff.2 ⟨.reg, checkAccess_word (k := 0) rfl rfl (by decide : 4 ≤ 40), rfl, rfl⟩

/-- A step on a CMD write runs the word, the write being answered OK (R66, R97). -/
theorem step_of_cmdWrite {s : State} {w : Word} {rest : List HostEvent}
    (hp : s.pending = .transaction (.write 0 0 (.word w)) :: rest) :
    step s = runCommand w (s.answering rest .done) := by
  rw [step_cons hp]
  simp only [serve, hostWrite_cmd]
  rfl

/-- A word that decodes runs as its command. -/
theorem runCommand_of_decode {w : Word} {i : Instr} (h : decode w = .ok i) (s : State) :
    runCommand w s = exec i s := by
  simp only [runCommand, h]

/-- A word that does not decode fails with IllegalCommand (R94). -/
theorem runCommand_of_illegal {w : Word} (h : ∀ i, decode w ≠ .ok i) (s : State) :
    runCommand w s = .next (s.fail .illegalCommand) := by
  obtain ⟨i, hd, -⟩ | ⟨_, -, e⟩ := runCommand_cases w s
  · exact absurd hd (h i)
  · exact e

/-- The event that stands for a command word is a write of it to CMD. -/
theorem commandEvent_toNat (w : Word) : commandEvent 32 w.toNat = .transaction (.write 0 0 (.word w)) := by
  simp [commandEvent, Nat.mod_eq_of_lt w.isLt]

/-- Settles O4: both events are CMD writes of `w`. -/
theorem stepRunsTheDecodedCommand : Obligations.StepRunsTheDecodedCommand := by
  intro s rest w i hd
  have hfetch : (s.withFetchWord 32 w.toNat).pending = .transaction (.write 0 0 (.word w)) :: s.pending :=
    congrArg (· :: s.pending) (commandEvent_toNat w)
  exact ⟨fun hp => (step_of_cmdWrite hp).trans (runCommand_of_decode hd _),
    (step_of_cmdWrite hfetch).trans (runCommand_of_decode hd _)⟩

/-- Settles O5: a word that decoded would be a format-N word or match the ARK row. -/
theorem illegalWordFailsWithCodeFive : Obligations.IllegalWordFailsWithCodeFive := by
  intro s rest w hp hN hR
  have hillegal : ∀ i, decode w ≠ .ok i := fun i hd => by
    cases i with
    | ark rnd =>
      obtain ⟨hmask, hrnd, -⟩ := decode_ok_ark_iff.1 hd
      exact hR ⟨hmask, hrnd⟩
    | _ => exact hN _ (by decide) ((decode_ok_iff_eq_encode rfl).1 hd)
  exact (step_of_cmdWrite hp).trans (runCommand_of_illegal hillegal _)

end Sys2Proof.Machine
end

section
/-! PROOFS. The field engine (41_gf_engine.md): `multiply` is the polynomial product modulo 0x11B, the laws of R112 and
R113, and what GFMUL and GFINV store. The laws that are additive in each operand are read off the one-bit bytes. -/

namespace Sys2Proof.Machine
open Ref

/-! ## The polynomial product -/

/-- What holds of 0 and of the one-bit bytes, and of the XOR of any two bytes of which it holds, holds of every byte. -/
theorem byte_xor_induction {p : Byte → Prop} (zero : p 0#8) (xor : ∀ a b, p a → p b → p (a ^^^ b))
    (bit : ∀ i : Fin 8, p (1#8 <<< i.val)) (a : Byte) : p a := by
  rw [← byte_eq_xor_bits a]
  induction List.finRange 8 with
  | nil => exact zero
  | cons i l ih =>
    refine xor _ _ ?_ ih
    split
    · exact bit i
    · exact zero

/-- The same for two bytes. -/
theorem byte_xor_induction₂ {p : Byte → Byte → Prop} (zero_left : ∀ b, p 0#8 b) (zero_right : ∀ a, p a 0#8)
    (xor_left : ∀ a a' b, p a b → p a' b → p (a ^^^ a') b) (xor_right : ∀ a b b', p a b → p a b' → p a (b ^^^ b'))
    (bit : ∀ i j : Fin 8, p (1#8 <<< i.val) (1#8 <<< j.val)) (a b : Byte) : p a b :=
  byte_xor_induction (p := fun a => p a b) (zero_left b) (fun a a' => xor_left a a' b)
    (fun i => byte_xor_induction (zero_right _) (xor_right _) (bit i) b) a

/-- The polynomial product is additive in its first factor. -/
theorem clmul_xor_left (a a' b : Nat) : clmul (a ^^^ a') b = clmul a b ^^^ clmul a' b := by
  refine List.foldl_hom₂ _ (· ^^^ ·) _ _ _ 0 0 fun x y i => ?_
  by_cases hb : b.testBit i
  · simp only [hb, if_true, Nat.shiftLeft_xor_distrib]
    ac_rfl
  · simp only [hb, Bool.false_eq_true, if_false]

/-- The polynomial product is additive in its second factor. -/
theorem clmul_xor_right (a b b' : Nat) : clmul a (b ^^^ b') = clmul a b ^^^ clmul a b' := by
  refine List.foldl_hom₂ _ (· ^^^ ·) _ _ _ 0 0 fun x y i => ?_
  rw [Nat.testBit_xor]
  cases b.testBit i <;> cases b'.testBit i
  case true.true => simp [Nat.xor_assoc]
  case true.false => simp only [Bool.xor_false, Bool.false_eq_true, if_true, if_false]; ac_rfl
  case false.true => exact Nat.xor_assoc x y _ |>.symm
  case false.false => rfl

/-- Where polynomial products add up, so do their remainders. -/
theorem isFieldProduct_xor {a b a₁ b₁ a₂ b₂ r₁ r₂ : Byte}
    (h : clmul a.toNat b.toNat = clmul a₁.toNat b₁.toNat ^^^ clmul a₂.toNat b₂.toNat)
    (h₁ : IsFieldProduct a₁ b₁ r₁) (h₂ : IsFieldProduct a₂ b₂ r₂) : IsFieldProduct a b (r₁ ^^^ r₂) := by
  obtain ⟨q₁, hq₁, e₁⟩ := h₁
  obtain ⟨q₂, hq₂, e₂⟩ := h₂
  refine ⟨q₁ ^^^ q₂, Nat.xor_lt_two_pow (n := 7) hq₁ hq₂, ?_⟩
  rw [h, e₁, e₂, clmul_xor_right, BitVec.toNat_xor]
  ac_rfl

/-- Where the polynomial product is 0, so is the field product. -/
theorem isFieldProduct_zero {a b : Byte} (h : clmul a.toNat b.toNat = 0) : IsFieldProduct a b 0#8 :=
  ⟨0, by decide, h⟩

/-- The products of one-bit bytes. -/
theorem isFieldProduct_multiply_bits : ∀ i j : Fin 8,
    IsFieldProduct (1#8 <<< i.val) (1#8 <<< j.val) (multiply (1#8 <<< i.val) (1#8 <<< j.val)) := by
  unfold IsFieldProduct
  decide +kernel

/-- Zero annihilates on the right. -/
theorem multiply_zero (a : Byte) : multiply a 0#8 = 0#8 := by
  simpa using multiply_xor_right a 0#8 0#8

/-- Zero annihilates on the left. -/
theorem zero_multiply (a : Byte) : multiply 0#8 a = 0#8 := by
  simpa using multiply_xor_left 0#8 0#8 a

/-- `multiply` is the remainder of the polynomial product modulo 0x11B (R111). -/
theorem isFieldProduct_multiply (a b : Byte) : IsFieldProduct a b (multiply a b) := by
  induction a, b using byte_xor_induction₂ with
  | zero_left b =>
    rw [zero_multiply]
    exact isFieldProduct_zero (by simp [clmul])
  | zero_right a =>
    rw [multiply_zero]
    exact isFieldProduct_zero (by simp [clmul])
  | xor_left a a' b h h' =>
    rw [multiply_xor_left]
    exact isFieldProduct_xor (clmul_xor_left _ _ _) h h'
  | xor_right a b b' h h' =>
    rw [multiply_xor_right]
    exact isFieldProduct_xor (clmul_xor_right _ _ _) h h'
  | bit i j => exact isFieldProduct_multiply_bits i j

/-! ## The laws of `multiply` -/

/-- Commutativity on one-bit bytes. -/
theorem multiply_comm_bits : ∀ i j : Fin 8,
    multiply (1#8 <<< i.val) (1#8 <<< j.val) = multiply (1#8 <<< j.val) (1#8 <<< i.val) := by
  decide +kernel

/-- `multiply` is commutative. -/
theorem multiply_comm (a b : Byte) : multiply a b = multiply b a := by
  induction a, b using byte_xor_induction₂ with
  | zero_left b => rw [zero_multiply, multiply_zero]
  | zero_right a => rw [zero_multiply, multiply_zero]
  | xor_left a a' b h h' => rw [multiply_xor_left, multiply_xor_right, h, h']
  | xor_right a b b' h h' => rw [multiply_xor_left, multiply_xor_right, h, h']
  | bit i j => exact multiply_comm_bits i j

/-- `inverse` inverts every nonzero byte (R113). -/
theorem multiply_inverse {a : Byte} (ha : a ≠ 0#8) : multiply a (inverse a) = 1#8 := by
  revert a
  simp only [← BitVec.toNat_inj, multiply_toNat, inverse_eq_inverseNat]
  decide +kernel

/-- A nonzero factor is cancelled by its inverse. -/
theorem multiply_inverse_cancel_left {a : Byte} (ha : a ≠ 0#8) (b : Byte) :
    multiply a (multiply (inverse a) b) = b := by
  rw [← multiply_assoc, multiply_inverse ha, one_multiply]

/-- An inverse is cancelled by its nonzero byte. -/
theorem inverse_multiply_cancel_left {a : Byte} (ha : a ≠ 0#8) (b : Byte) :
    multiply (inverse a) (multiply a b) = b := by
  rw [← multiply_assoc, multiply_comm (inverse a), multiply_inverse ha, one_multiply]

/-- A product is 0 only with a zero factor. -/
theorem multiply_eq_zero_iff (a b : Byte) : multiply a b = 0#8 ↔ a = 0#8 ∨ b = 0#8 := by
  constructor
  · intro h
    by_contra! hne
    obtain ⟨ha, hb⟩ := hne
    exact hb (by rw [← inverse_multiply_cancel_left ha b, h, multiply_zero])
  · rintro (rfl | rfl)
    · exact zero_multiply b
    · exact multiply_zero a

/-- The loop of R111 with nothing left of `b` keeps its accumulator. -/
theorem multiplyLoop_zero (n : Nat) (a acc : Byte) : multiplyLoop n a 0#8 acc = acc := by
  induction n generalizing a with
  | zero => rfl
  | succ n ih => exact ih _

/-- Doubling is a shift with reduction: the second iteration of R111's loop adds it, and no other adds anything. -/
theorem multiply_two (v : Byte) : multiply v 2#8 = (v <<< 1) ^^^ (if v[7] then 0x1B#8 else 0#8) := by
  have h : multiply v 2#8 = 0#8 ^^^ (if v[7] then (v <<< 1) ^^^ Config.red else v <<< 1) := multiplyLoop_zero 6 _ _
  rw [h, BitVec.zero_xor]
  split
  · rfl
  · exact BitVec.xor_zero.symm

/-! ## Powers -/

/-- The loop of R113 iterates multiplication by `a`. -/
theorem powerLoop_eq_iterate (a : Byte) (n : Nat) (r : Byte) : powerLoop a n r = (fun r => multiply r a)^[n] r := by
  induction n generalizing r with
  | zero => rfl
  | succ n ih => exact ih _

/-- The multiplicative group has 255 elements: the 255th power of a nonzero byte is 1 (R113). -/
theorem powerLoop_255 {a : Byte} (ha : a ≠ 0#8) : powerLoop a 255 1#8 = 1#8 := by
  calc powerLoop a (254 + 1) 1#8 = multiply (inverse a) a := powerLoop_add a 1#8 254 1
    _ = 1#8 := by rw [multiply_comm, multiply_inverse ha]

/-- The powers of 03 that the prime divisors of 255 leave to rule out: its exponents `255/3`, `255/5` and `255/17`. -/
theorem powerLoop_three_ne_one :
    powerLoop 3#8 85 1#8 ≠ 1#8 ∧ powerLoop 3#8 51 1#8 ≠ 1#8 ∧ powerLoop 3#8 15 1#8 ≠ 1#8 := by
  decide +kernel

/-- A divisor of 255 that divides none of 85, 51 and 15 is 255. -/
theorem eq_255_of_dvd : ∀ d ∈ Nat.divisors 255, ¬d ∣ 85 → ¬d ∣ 51 → ¬d ∣ 15 → d = 255 := by
  decide +kernel

/-- The order of `a` divides the exponents at which its power is 1. -/
theorem minimalPeriod_dvd_iff (a : Byte) (n : Nat) :
    Function.minimalPeriod (fun v => multiply v a) 1#8 ∣ n ↔ powerLoop a n 1#8 = 1#8 := by
  rw [← Function.isPeriodicPt_iff_minimalPeriod_dvd, powerLoop_eq_iterate]
  rfl

/-- 03 has order 255 (R112). -/
theorem minimalPeriod_multiply_three : Function.minimalPeriod (fun v => multiply v 3#8) 1#8 = 255 := by
  obtain ⟨h85, h51, h15⟩ := powerLoop_three_ne_one
  have h255 := (minimalPeriod_dvd_iff 3#8 255).2 (powerLoop_255 (by decide))
  exact eq_255_of_dvd _ (Nat.mem_divisors.2 ⟨h255, by decide⟩) (mt (minimalPeriod_dvd_iff _ _).1 h85)
    (mt (minimalPeriod_dvd_iff _ _).1 h51) (mt (minimalPeriod_dvd_iff _ _).1 h15)

/-- Settles O17: an inverse makes multiplication by a nonzero byte bijective, and 03 has order 255. -/
theorem multiplyObeysTheFieldLaws : Obligations.MultiplyObeysTheFieldLaws := by
  refine ⟨multiply_comm, multiply_assoc, multiply_xor_right, multiply_one, multiply_zero, fun a ha => ?_,
    multiply_eq_zero_iff, multiply_two, by decide, fun n => ?_⟩
  · exact Function.bijective_iff_has_inverse.2
      ⟨multiply (inverse a), inverse_multiply_cancel_left ha, multiply_inverse_cancel_left ha⟩
  · rw [← Nat.dvd_iff_mod_eq_zero, ← minimalPeriod_multiply_three, minimalPeriod_dvd_iff, powerLoop_eq_iterate]

/-! ## The inverse -/

/-- The convention for 0 (R113). -/
theorem inverse_zero : inverse 0#8 = 0#8 := by
  rw [inverse_eq_inverseNat]
  decide

/-- Settles O18: R113's loop is an iteration, and the printed values and laws are those of its 13-product form. -/
theorem inverseIsThe254thPowerAndInverts : Obligations.InverseIsThe254thPowerAndInverts := by
  refine ⟨fun a => powerLoop_eq_iterate a 254 1#8, inverse_zero, ?_, ?_, fun a => multiply_inverse, inverse_inverse⟩
  · exact (one_multiply _).symm.trans (multiply_inverse (by decide))
  · rw [inverse_eq_inverseNat]
    decide

/-! ## GFMUL and GFINV -/

/-- Settles O15: GFMUL stores the field product. -/
theorem gfmulLeavesTheFieldProductInRes : Obligations.GfmulLeavesTheFieldProductInRes :=
  ⟨decode_encode (i := .gfmul) rfl, fun _ => ⟨_, isFieldProduct_multiply _ _, rfl, rfl⟩⟩

/-- Settles O16: the inverse's product with a nonzero operand is 1, and the product is the field's. -/
theorem gfinvLeavesTheFieldInverseInRes : Obligations.GfinvLeavesTheFieldInverseInRes := by
  refine ⟨decode_encode (i := .gfinv) rfl, fun s => ⟨_, fun h => ?_, fun h => ?_, rfl, rfl⟩⟩
  · rw [h, inverse_zero]
  · rw [← multiply_inverse h]
    exact isFieldProduct_multiply _ _

end Sys2Proof.Machine
end

section
/-! PROOFS. The S-box generator (42_sbox_generator.md): the bits of the affine map, the table build in any order, and
what SBGEN, SUBW and ISUBW store. -/

namespace Sys2Proof.Machine
open Ref

/-! ## The affine map -/

/-- Accumulating a number of 1 bits keeps its parity. -/
theorem testBit_zero_add_toNat (n : Nat) (b : Bool) : (n + b.toNat).testBit 0 = (n.testBit 0 ^^ b) := by
  rw [Nat.testBit_zero, Nat.testBit_zero]
  obtain h | h := Nat.mod_two_eq_zero_or_one n <;> cases b <;> simp [h, Nat.add_mod]

/-- The parity of a byte is the XOR of its bits (R8). -/
theorem parity_eq_xor_bits (v : Byte) : parity v = (List.range 8).foldl (fun p i => p ^^ v.getLsbD i) false :=
  (List.foldl_hom (fun n : Nat => n.testBit 0) fun n i => (testBit_zero_add_toNat n (v.getLsbD i)).symm).symm

/-- R130's loop, over some bit numbers in whatever order, sets the bits of those whose condition holds. -/
theorem getLsbD_foldl_setBit (p : Nat → Bool) (l : List Nat) (acc : Byte) {i : Nat} (hi : i < 8) :
    (l.foldl (fun acc j => if p j then acc ||| (1#8 <<< j) else acc) acc).getLsbD i =
      (acc.getLsbD i || (decide (i ∈ l) && p i)) := by
  induction l generalizing acc with
  | nil => simp
  | cons j l ih =>
    rw [List.foldl_cons, ih]
    by_cases hij : i = j
    · subst hij
      cases p i <;> simp [hi]
    · have hbit : (1#8 <<< j).getLsbD i = false := by
        simp only [BitVec.getLsbD_shiftLeft, BitVec.getLsbD_one]
        grind
      cases p j <;> simp [hij, hbit]

/-- Before the constant, bit `i` of the affine map is the parity of row `i` on `x` (R130). -/
theorem getLsbD_affine_xor (x : Byte) {i : Nat} (hi : i < 8) :
    (affine x ^^^ 0x63#8).getLsbD i = parity (x &&& rotl8 0xF1#8 i) := by
  have hconst (b : Byte) : b ^^^ Config.affConst ^^^ 0x63#8 = b := by
    rw [BitVec.xor_assoc, show Config.affConst ^^^ 0x63#8 = 0#8 from rfl, BitVec.xor_zero]
  unfold affine
  rw [hconst, getLsbD_foldl_setBit _ _ _ hi]
  simp [hi, Config.affRow]

/-- Row `i` selects bit `i` and the four bits below it, cyclically. -/
theorem parity_and_row (x : Byte) : ∀ i : Fin 8, parity (x &&& rotl8 0xF1#8 i.val) =
    (x.getLsbD i.val ^^ x.getLsbD ((i.val + 4) % 8) ^^ x.getLsbD ((i.val + 5) % 8) ^^ x.getLsbD ((i.val + 6) % 8) ^^
      x.getLsbD ((i.val + 7) % 8)) := by
  intro i
  rw [parity_eq_xor_bits]
  fin_cases i <;> simp [List.range_succ, rotl8, Bool.xor_left_comm, Bool.xor_comm]

/-- `affine` is injective, by its inverse, so it is a bijection on the bytes. -/
theorem affine_bijective : Function.Bijective affine :=
  Finite.injective_iff_bijective.1 (Function.LeftInverse.injective affineInverse_affine)

/-- Settles O19: the loop sets bit `i` to the parity of row `i`, and row `i` selects the five bits spelled out. -/
theorem affineIsTheBitMatrixAndABijection : Obligations.AffineIsTheBitMatrixAndABijection :=
  ⟨fun x _ hi => getLsbD_affine_xor x hi, by decide,
    fun x i hi => (getLsbD_affine_xor x hi).trans (parity_and_row x ⟨i, hi⟩), by decide, by decide, by decide,
    affine_bijective⟩

/-! ## The table build -/

/-- R131's loop over the same bytes in another order leaves the same tables. -/
theorem foldl_sboxStep_perm {l l' : List (Fin 256)} (h : l.Perm l') (t : Table × Table) :
    l.foldl sboxStep t = l'.foldl sboxStep t := by
  refine Prod.ext (table_ext fun b => ?_) (table_ext fun y => ?_)
  · simp only [(lookup_foldl_sboxStep _ t b).1, h.mem_iff]
  · obtain ⟨b, rfl⟩ := affine_inverse_surjective y
    simp only [(lookup_foldl_sboxStep _ t b).2, h.mem_iff]

section
variable {sbox isbox : Table} (h : SboxTables sbox isbox)
include h

/-- ISBOX undoes SBOX (R131). -/
theorem SboxTables.lookup_isbox_sbox (a : Byte) : lookup isbox (lookup sbox a) = a := h.2 a

/-- The entry of SBOX (R131). -/
theorem SboxTables.lookup_sbox (a : Byte) : lookup sbox a = affine (inverse a) := h.1 a

/-- The entry of ISBOX: the byte whose S-box entry it stands at. -/
theorem SboxTables.lookup_isbox {a y : Byte} (e : affine (inverse a) = y) : lookup isbox y = a := by
  rw [← e, ← h.lookup_sbox, h.lookup_isbox_sbox]

/-- SBOX undoes ISBOX (95_test_vectors.md V1): every byte is an S-box entry. -/
theorem SboxTables.lookup_sbox_isbox (y : Byte) : lookup sbox (lookup isbox y) = y := by
  obtain ⟨a, e⟩ := affine_inverse_surjective y
  rw [h.lookup_isbox e, h.lookup_sbox]
  exact e

/-- SBOX is a permutation of the bytes. -/
theorem SboxTables.bijective : Function.Bijective (lookup sbox) :=
  Function.bijective_iff_has_inverse.2 ⟨lookup isbox, h.lookup_isbox_sbox, h.lookup_sbox_isbox⟩

end

/-- R131's printed entries, as values of `affine(inverse(a))`; that at 52 is the entry ISBOX[00]. -/
theorem affine_inverse_printed :
    affine (inverse 0x00#8) = 0x63#8 ∧ affine (inverse 0x01#8) = 0x7C#8 ∧ affine (inverse 0x53#8) = 0xED#8 ∧
    affine (inverse 0xFF#8) = 0x16#8 ∧ affine (inverse 0x52#8) = 0x00#8 := by
  simp only [inverse_eq_inverseNat]
  decide +kernel

/-- Settles O20: what the loop leaves depends on the set of bytes it ran over alone, and the rest are facts about the
tables of R131. -/
theorem tableBuildGivesInversePermutationsWhateverWasThere :
    Obligations.TableBuildGivesInversePermutationsWhateverWasThere := by
  intro t u
  have h := buildSboxTables_valid t
  obtain ⟨e00, e01, e53, eFF, e52⟩ := affine_inverse_printed
  exact ⟨buildSboxTables_congr t u, fun _ ho => foldl_sboxStep_perm ho t, h, h.bijective, h.lookup_sbox_isbox,
    (h.lookup_sbox _).trans e00, (h.lookup_sbox _).trans e01, (h.lookup_sbox _).trans e53,
    (h.lookup_sbox _).trans eFF, h.lookup_isbox e52, h.lookup_isbox e00⟩

/-! ## SBGEN -/

/-- The build on valid tables writes the values they hold (R132). -/
theorem buildSbox_of_valid {s : State} (h : SboxTables s.engine.sbox s.engine.isbox) : s.buildSbox = s := by
  obtain ⟨e1, e2⟩ := (buildSboxTables_valid (s.engine.sbox, s.engine.isbox)).unique h
  simp only [State.buildSbox, State.setTables, e1, e2]

/-- SBGEN stores the two tables, SV and ERR, whatever tables the build makes. -/
theorem setTables_setSv_succeed (s : State) (p : Table × Table) : (s.setTables p).setSv.succeed =
    { s with engine := { s.engine with sbox := p.1, isbox := p.2, sv := true, err := .ok } } := rfl

/-- Setting a flag that is set changes nothing. -/
theorem setSv_of_sv {s : State} (h : s.engine.sv = true) : s.setSv = s := by
  simp only [State.setSv, ← h]

/-- Settles O21: the build leaves valid tables, and on valid tables it changes nothing. -/
theorem sbgenBuildsTheTables : Obligations.SbgenBuildsTheTables := by
  refine ⟨decode_encode (i := .sbgen) rfl, fun s =>
    ⟨s.buildSbox.setSv.succeed, rfl, buildSboxTables_valid _, setTables_setSv_succeed s _, fun hsv h => ?_⟩⟩
  rw [buildSbox_of_valid h, setSv_of_sv hsv]
  rfl

/-! ## Words and their bytes -/

/-- Byte `k` of a word by shifting is its byte `k` by selection (R9). -/
theorem byteOf_eq_byte (k : Nat) (w : Word) : byteOf k w = byte k w :=
  BitVec.eq_of_getLsbD_eq fun i _ => by simp [byteOf, byte]

/-- The bits of byte `k` of a word. -/
theorem getLsbD_byte (k : Nat) (w : Word) {i : Nat} (hi : i < 8) :
    (byte k w).getLsbD i = w.getLsbD (24 - 8 * k + i) := by
  simp [byte, hi]

/-- The bits of four bytes side by side, the last one lowest. -/
theorem getLsbD_append_bytes (b0 b1 b2 b3 : Byte) (i : Nat) : BitVec.getLsbD (w := 32) (b0 ++ b1 ++ b2 ++ b3) i =
    if i < 8 then b3.getLsbD i else if i < 16 then b2.getLsbD (i - 8) else
    if i < 24 then b1.getLsbD (i - 16) else b0.getLsbD (i - 24) := by
  show BitVec.getLsbD (w := 8 + 8 + 8 + 8) (b0 ++ b1 ++ b2 ++ b3) i = _
  simp only [BitVec.getLsbD_append, Nat.sub_sub]
  grind

/-- `word(b0, b1, b2, b3)` is the four bytes side by side (R9). -/
theorem word_eq_append (b0 b1 b2 b3 : Byte) : word b0 b1 b2 b3 = b0 ++ b1 ++ b2 ++ b3 := by
  refine BitVec.eq_of_getLsbD_eq fun i hi => ?_
  rw [getLsbD_append_bytes]
  simp only [word, zext32, BitVec.getLsbD_or, BitVec.getLsbD_shiftLeft, BitVec.getLsbD_setWidth]
  grind

/-- The bytes of four bytes side by side. -/
theorem byte_append (b0 b1 b2 b3 : Byte) : byte 0 (b0 ++ b1 ++ b2 ++ b3) = b0 ∧
    byte 1 (b0 ++ b1 ++ b2 ++ b3) = b1 ∧ byte 2 (b0 ++ b1 ++ b2 ++ b3) = b2 ∧ byte 3 (b0 ++ b1 ++ b2 ++ b3) = b3 := by
  refine ⟨?_, ?_, ?_, ?_⟩ <;> refine BitVec.eq_of_getLsbD_eq fun i hi => ?_
  all_goals
    rw [getLsbD_byte _ _ hi, getLsbD_append_bytes]
    grind

/-- A word is its four bytes side by side (R9). -/
theorem append_byte (w : Word) : byte 0 w ++ byte 1 w ++ byte 2 w ++ byte 3 w = w := by
  refine BitVec.eq_of_getLsbD_eq fun i hi => ?_
  rw [getLsbD_append_bytes]
  grind [getLsbD_byte]

/-! ## SUBW and ISUBW -/

/-- `subword` substitutes the four bytes in order (R134). -/
theorem subword_eq_substituted (t : Table) (w : Word) : subword t w = substituted t w := by
  simp only [subword, substituted, word_eq_append, byteOf_eq_byte]

/-- The lazy build ensures the tables (R133). -/
theorem ensuredSbox_ensureSbox (s : State) : EnsuredSbox s s.ensureSbox := by
  obtain ⟨hsv, e⟩ | ⟨hsv, e⟩ := ensureSbox_cases s <;> rw [e]
  · exact ⟨fun _ => ⟨rfl, rfl⟩, fun h => absurd h (by simp [hsv]), hsv⟩
  · exact ⟨fun h => absurd h (by simp [hsv]), fun _ => buildSboxTables_valid _, rfl⟩

/-- Storing a result in RES after the lazy build: the frame of SUBW and ISUBW (R136, R137). -/
theorem ensureSbox_setRes_succeed_frame (s : State) (v : Word) : (s.ensureSbox.setRes v).succeed =
    { s with engine := { s.engine with sbox := s.ensureSbox.engine.sbox, isbox := s.ensureSbox.engine.isbox,
                                       sv := true, res := v, err := .ok } } := by
  rw [ensureSbox_frame]
  rfl

/-- Settles O22: SUBW ensures the tables and stores `subword` with SBOX. -/
theorem subwSubstitutesEachByteThroughSbox : Obligations.SubwSubstitutesEachByteThroughSbox :=
  ⟨decode_encode (i := .subw) rfl, fun s => ⟨_, rfl, ensuredSbox_ensureSbox s,
    (subword_eq_substituted _ _).trans (congrArg (substituted _) (ensureSbox_opa s)),
    ensureSbox_setRes_succeed_frame s _⟩⟩

/-- Settles O23: ISUBW ensures the tables and stores `subword` with ISBOX. -/
theorem isubwSubstitutesEachByteThroughIsbox : Obligations.IsubwSubstitutesEachByteThroughIsbox :=
  ⟨decode_encode (i := .isubw) rfl, fun s => ⟨_, rfl, ensuredSbox_ensureSbox s,
    (subword_eq_substituted _ _).trans (congrArg (substituted _) (ensureSbox_opa s)),
    ensureSbox_setRes_succeed_frame s _⟩⟩

/-! ## The two substitutions undo each other -/

/-- Ensured tables are flagged valid. -/
theorem ensuredSbox_sv {s t : State} (h : EnsuredSbox s t) : t.engine.sv = true := h.2.2

/-- Ensured tables are those of R131, if they were where they were flagged valid. -/
theorem ensuredSbox_valid {s t : State} (h : EnsuredSbox s t)
    (hs : s.engine.sv = true → SboxTables s.engine.sbox s.engine.isbox) :
    SboxTables t.engine.sbox t.engine.isbox := by
  obtain ⟨hkept, hbuilt, -⟩ := h
  cases hsv : s.engine.sv with
  | false => exact hbuilt hsv
  | true =>
    obtain ⟨e1, e2⟩ := hkept hsv
    rw [e1, e2]
    exact hs hsv

/-- Where one table undoes another, substituting through both gives the word back (R135). -/
theorem substituted_substituted {t t' : Table} (h : ∀ b, lookup t' (lookup t b) = b) (w : Word) :
    substituted t' (substituted t w) = w := by
  obtain ⟨e0, e1, e2, e3⟩ :=
    byte_append (lookup t (byte 0 w)) (lookup t (byte 1 w)) (lookup t (byte 2 w)) (lookup t (byte 3 w))
  calc substituted t' (substituted t w) = byte 0 w ++ byte 1 w ++ byte 2 w ++ byte 3 w := by
        simp only [substituted, e0, e1, e2, e3, h]
    _ = w := append_byte w

/-- What a SUBW leaves (O22). -/
theorem of_exec_subw {s t : State} (h : exec .subw s = .next t) :
    EnsuredSbox s t ∧ t.engine.res = substituted t.engine.sbox s.engine.opa := by
  obtain ⟨t', ht, he, hres, -⟩ := subwSubstitutesEachByteThroughSbox.2 s
  obtain rfl := Host.Outcome.next.inj (ht.symm.trans h)
  exact ⟨he, hres⟩

/-- What an ISUBW leaves (O23). -/
theorem of_exec_isubw {s t : State} (h : exec .isubw s = .next t) :
    EnsuredSbox s t ∧ t.engine.res = substituted t.engine.isbox s.engine.opa := by
  obtain ⟨t', ht, he, hres, -⟩ := isubwSubstitutesEachByteThroughIsbox.2 s
  obtain rfl := Host.Outcome.next.inj (ht.symm.trans h)
  exact ⟨he, hres⟩

/-- Settles O24: the second command finds the tables valid, so it keeps those the first one used. -/
theorem wordSubstitutionsUndoEachOther : Obligations.WordSubstitutionsUndoEachOther := by
  intro s t u hs
  refine ⟨fun h1 h2 => ?_, fun h1 h2 => ?_⟩
  · obtain ⟨he, hres⟩ := of_exec_subw h1
    obtain ⟨⟨hkept, -⟩, hres'⟩ := of_exec_isubw h2
    rw [hres', (hkept (ensuredSbox_sv he)).2, hres]
    exact substituted_substituted (ensuredSbox_valid he hs).lookup_isbox_sbox _
  · obtain ⟨he, hres⟩ := of_exec_isubw h1
    obtain ⟨⟨hkept, -⟩, hres'⟩ := of_exec_subw h2
    rw [hres', (hkept (ensuredSbox_sv he)).1, hres]
    exact substituted_substituted (ensuredSbox_valid he hs).lookup_sbox_isbox _

end Sys2Proof.Machine
end

section
/-! PROOFS. The key schedule (43_key_schedule.md): the rotation of a word, the recurrence that the expanded key meets,
and what RCGEN and KEYEXP store. -/

namespace Sys2Proof.Machine
open Ref

/-! ## Rotation -/

/-- The model's shifts are the rotation of a word by one byte (R150). -/
theorem rotw_eq_rotateLeft (w : Word) : rotw w = w.rotateLeft 8 := rfl

/-- Rotating four bytes side by side moves the first one to the end (R150). -/
theorem rotw_append (b0 b1 b2 b3 : Byte) : rotw (b0 ++ b1 ++ b2 ++ b3) = b1 ++ b2 ++ b3 ++ b0 := by
  refine BitVec.eq_of_getLsbD_eq fun i hi => ?_
  rw [getLsbD_append_bytes]
  simp only [rotw, BitVec.getLsbD_or, BitVec.getLsbD_shiftLeft, BitVec.getLsbD_ushiftRight, getLsbD_append_bytes]
  grind

/-- Settles O25: `word` puts its bytes side by side, and both the rotation and the four bytes of a word are known
there. -/
theorem rotwMovesEveryByteOnePlaceLeft : Obligations.RotwMovesEveryByteOnePlaceLeft := by
  refine ⟨fun b0 b1 b2 b3 => ⟨?_, word_eq_append b0 b1 b2 b3⟩, fun w => ⟨?_, fun k _ => byteOf_eq_byte k w⟩, rfl⟩
  · rw [word_eq_append, word_eq_append, rotw_append]
  · simp only [byteOf_eq_byte, word_eq_append, append_byte]

/-! ## RCGEN -/

/-- RCGEN stores RCON, RV and ERR, whatever constants the build makes. -/
theorem setRcon_setRv_succeed (s : State) (r : RconTable) : (s.setRcon r).setRv.succeed =
    { s with engine := { s.engine with rcon := r, rv := true, err := .ok } } := rfl

/-- Settles O26: the build leaves the eleven constants whatever RCON held. -/
theorem rcgenBuildsTheElevenConstants : Obligations.RcgenBuildsTheElevenConstants :=
  ⟨decode_encode (i := .rcgen) rfl, fun s =>
    ⟨s.buildRcon.setRv.succeed, rfl, buildRcon_values _, setRcon_setRv_succeed s _⟩⟩

/-- The lazy build ensures RCON (R153). -/
theorem ensuredRcon_ensureRcon (s : State) : EnsuredRcon s s.ensureRcon := by
  obtain ⟨hrv, e⟩ | ⟨hrv, e⟩ := ensureRcon_cases s <;> rw [e]
  · exact ⟨fun _ => rfl, fun h => absurd h (by simp [hrv]), hrv⟩
  · exact ⟨fun h => absurd h (by simp [hrv]), fun _ => buildRcon_values _, rfl⟩

/-! ## The expansion -/

section
variable (sbox : Table) (rcon : RconTable)

/-- The word that a pass of R154's loop stores. -/
theorem getElem_expandStep_self (w : Schedule) (j : Fin 40) : (expandStep sbox rcon w j)[j.val + 4] =
    w[j.val] ^^^ if j.val % 4 = 0 then substituted sbox (w[j.val + 3].rotateLeft 8) ^^^ rcon[(j.val + 4) / 4]
      else w[j.val + 3] := by
  simp only [expandStep, Vector.getElem_set_self, subword_eq_substituted, rotw_eq_rotateLeft]

/-- Passes of R154's loop store nothing below the first word they reach. -/
theorem getElem_foldl_expandStep (l : List (Fin 40)) (w : Schedule) {i : Nat} (hi : i < 44)
    (h : ∀ j ∈ l, i < j.val + 4) : (l.foldl (expandStep sbox rcon) w)[i] = w[i] := by
  induction l generalizing w with
  | nil => rfl
  | cons j l ih =>
    obtain ⟨hj, hl⟩ := List.forall_mem_cons.1 h
    rw [List.foldl_cons, ih _ hl]
    exact Vector.getElem_set_ne (by omega) hi (by omega)

variable (key : Block)

/-- The first four words are the key (R154). -/
theorem getElem_expandKey_of_lt {i : Nat} (h : i < 4) : (expandKey sbox rcon key)[i] =
    key[4 * i] ++ key[4 * i + 1] ++ key[4 * i + 2] ++ key[4 * i + 3] := by
  rw [expandKey, getElem_foldl_expandStep _ _ _ _ _ fun _ _ => by omega]
  simp only [keyWords, Vector.getElem_ofFn, dif_pos h, blockWord, word_eq_append]

/-- The loop runs upward, so when a pass has stored its word, neither that word nor those it read are stored again:
they are the words of the finished schedule, and these meet R154's recurrence. -/
theorem getElem_expandKey_add_four (j : Fin 40) :
    (expandKey sbox rcon key)[j.val + 4] = (expandKey sbox rcon key)[j.val] ^^^
      if j.val % 4 = 0 then
        substituted sbox ((expandKey sbox rcon key)[j.val + 3].rotateLeft 8) ^^^ rcon[(j.val + 4) / 4]
      else (expandKey sbox rcon key)[j.val + 3] := by
  obtain ⟨before, after, hsplit⟩ := List.append_of_mem (List.mem_finRange j)
  have hlater : ∀ k ∈ after, j < k := by
    have hsorted := List.pairwise_lt_finRange 40
    rw [hsplit] at hsorted
    exact (List.pairwise_cons.1 (List.pairwise_append.1 hsorted).2.1).1
  let w := before.foldl (expandStep sbox rcon) (keyWords key)
  have hks : expandKey sbox rcon key = (j :: after).foldl (expandStep sbox rcon) w := by
    rw [expandKey, hsplit, List.foldl_append]
  have hread {i : Nat} (hi : i < j.val + 4) : (expandKey sbox rcon key)[i] = w[i] := by
    simp only [hks]
    exact getElem_foldl_expandStep _ _ _ _ _ fun k hk => by
      obtain rfl | hk := List.mem_cons.1 hk
      · exact hi
      · have := hlater k hk; omega
  have hstored : (expandKey sbox rcon key)[j.val + 4] = (expandStep sbox rcon w j)[j.val + 4] := by
    simp only [hks, List.foldl_cons]
    exact getElem_foldl_expandStep _ _ _ _ _ fun k hk => by have := hlater k hk; omega
  rw [hstored, getElem_expandStep_self, hread (Nat.lt_add_of_pos_right four_pos), hread (Nat.lt_succ_self _)]

/-- `expand_key` leaves the expansion of the key (R154). -/
theorem isSchedule_expandKey : IsSchedule sbox rcon key (expandKey sbox rcon key) := by
  refine ⟨fun i h => getElem_expandKey_of_lt sbox rcon key h, fun i h h4 hm => ?_, fun i h h4 hm => ?_⟩ <;>
    obtain ⟨j, rfl⟩ := Nat.exists_eq_add_of_le' h4 <;>
    refine (getElem_expandKey_add_four sbox rcon key ⟨j, by omega⟩).trans ?_
  · rw [if_pos (by simpa using hm)]; rfl
  · rw [if_neg (by simpa using hm)]; rfl

end

/-! ## KEYEXP -/

/-- KEYEXP stores the tables, the schedule, their flags and ERR (R155). -/
theorem expandSchedule_succeed_frame (s : State) : s.expandSchedule.succeed =
    { s with engine := { s.engine with
        sbox := s.expandSchedule.succeed.engine.sbox, isbox := s.expandSchedule.succeed.engine.isbox, sv := true,
        rcon := s.expandSchedule.succeed.engine.rcon, rv := true, ks := s.expandSchedule.succeed.engine.ks,
        kv := true, err := .ok } } := by
  rw [expandSchedule_spec]
  rfl

/-- Settles O27: KEYEXP fails, or runs the lazy builds and stores the expansion that the tables they leave give. -/
theorem keyexpExpandsTheKey : Obligations.KeyexpExpandsTheKey := by
  refine ⟨decode_encode (i := .keyexp) rfl, fun s => ?_⟩
  obtain ⟨hk, e⟩ | ⟨hk, e⟩ := execKeyexp_cases s
  · exact ⟨fun _ => e, fun h => absurd h hk⟩
  · refine ⟨fun h => absurd hk h, fun _ => ⟨s.expandSchedule.succeed, e, ?_, ?_, ?_, expandSchedule_succeed_frame s⟩⟩
    · simpa [EnsuredSbox] using ensuredSbox_ensureSbox s
    · simpa [EnsuredRcon] using ensuredRcon_ensureRcon s
    · rw [expandSchedule_spec]
      exact isSchedule_expandKey _ _ _

end Sys2Proof.Machine
end

section
/-! PROOFS. The inverse cipher (44_inverse_cipher.md): each layer of a round as the relation that the spec writes down,
what ARK, ISHR, ISUBB, IMIXC and DECBLK store, and the forty primitives against one DECBLK. -/

namespace Sys2Proof.Machine
open Ref

/-! ## Rows and columns of the State -/

/-- Every position of the State is row `r` of a column `c` (R10). -/
theorem exists_column_row (j : Fin 16) : ∃ c r : Fin 4, j.val = 4 * c.val + r.val :=
  ⟨⟨j.val / 4, by omega⟩, ⟨j.val % 4, by omega⟩, (Nat.div_add_mod j.val 4).symm⟩

/-- Blocks that agree in every row of every column are equal. -/
theorem block_ext {a b : Block} (h : ∀ c r : Fin 4, a[4 * c.val + r.val] = b[4 * c.val + r.val]) : a = b :=
  Vector.ext fun j hj => by
    obtain ⟨c, r, e⟩ := exists_column_row ⟨j, hj⟩
    obtain rfl : j = 4 * c.val + r.val := e
    exact h c r

/-! ## Commands that store the State -/

/-- A command that stores ST and succeeds changes ST and ERR alone. -/
theorem next_setSt_succeed {o : Host.Outcome State Fault Refusal} {s : State} {b : Block}
    (h : o = .next (s.setSt b).succeed) :
    o = .next { s with engine := { s.engine with st := b, err := .ok } } := h

/-- Storing the ST that is there changes ERR alone. -/
theorem next_setSt_st_succeed {o : Host.Outcome State Fault Refusal} {s : State} {b : Block} (hb : b = s.engine.st)
    (h : o = .next (s.setSt b).succeed) : o = .next { s with engine := { s.engine with err := .ok } } := by
  rw [h, hb]
  rfl

/-- Of two stores of ST, the second one counts. -/
@[simp] theorem setSt_succeed_setSt_succeed (s : State) (a b : Block) :
    ((s.setSt a).succeed.setSt b).succeed = (s.setSt b).succeed := rfl

/-- Running a list of commands whose first one succeeds. -/
theorem runAll_cons {i : Instr} {s t : State} (h : exec i s = .next t) (is : List Instr) :
    runAll (i :: is) s = runAll is t := by
  simp only [runAll, h]

/-- ARK without a valid schedule (R172). -/
theorem exec_ark_of_not_kv {s : State} {rnd : BitVec 4} (h : rnd.toNat ≤ 10) (hk : s.engine.kv = false) :
    exec (.ark rnd) s = .next (s.fail .scheduleNotValid) := by
  obtain ⟨h', -⟩ | ⟨-, hk', -⟩ | ⟨-, -, e⟩ := execArk_cases s rnd
  · omega
  · simp [hk] at hk'
  · exact e

/-- ARK with a valid schedule (R172). -/
theorem exec_ark_of_kv {s : State} {rnd : BitVec 4} (h : rnd.toNat ≤ 10) (hk : s.engine.kv = true) :
    exec (.ark rnd) s =
      .next (s.setSt (addRoundKey s.engine.st s.engine.ks ⟨rnd.toNat, Nat.lt_succ_of_le h⟩)).succeed := by
  obtain ⟨h', -⟩ | ⟨_, -, e⟩ | ⟨-, hk', -⟩ := execArk_cases s rnd
  · omega
  · exact e
  · simp [hk] at hk'

/-- DECBLK with a valid schedule (R180). -/
theorem exec_decblk_of_kv {s : State} (hk : s.engine.kv = true) :
    exec .decblk s = .next (s.setSt (decryptBlock s.engine.isbox s.engine.ks s.engine.st)).succeed := by
  obtain ⟨-, e⟩ | ⟨hk', -⟩ := execDecblk_cases s
  · exact e
  · simp [hk] at hk'

/-- ISHR stores the shifted State (R174). -/
theorem exec_ishr (s : State) : exec .ishr s = .next (s.setSt (invShiftRows s.engine.st)).succeed := rfl

/-- IMIXC stores the mixed State (R178). -/
theorem exec_imixc (s : State) : exec .imixc s = .next (s.setSt (invMixColumns s.engine.st)).succeed := rfl

/-- ISUBB builds the tables where it must and stores the substituted State (R176). -/
theorem exec_isubb (s : State) : exec .isubb s =
    .next (s.ensureSbox.setSt (invSubBytes s.ensureSbox.engine.isbox s.ensureSbox.engine.st)).succeed := rfl

/-- ISUBB where the tables are valid builds none (R176). -/
theorem exec_isubb_of_sv {s : State} (hs : s.engine.sv = true) :
    exec .isubb s = .next (s.setSt (invSubBytes s.engine.isbox s.engine.st)).succeed := by
  obtain ⟨-, e⟩ | ⟨hs', -⟩ := ensureSbox_cases s
  · rw [exec_isubb, e]
  · simp [hs] at hs'

/-! ## AddRoundKey -/

/-- `add_round_key` XORs byte `k` of word `4r + c` into row `k` of column `c` (R171). -/
theorem roundKeyAdded_addRoundKey (st : Block) (ks : Schedule) (r : Fin 11) :
    RoundKeyAdded ks r st (addRoundKey st ks r) := by
  intro c k
  have hmod : (4 * c.val + k.val) % 4 = k.val := by omega
  have hdiv : (4 * c.val + k.val) / 4 = c.val := by omega
  simp [addRoundKey, byteOf_eq_byte, hmod, hdiv]

/-- Adding the same round key twice gives the State back (R172). -/
theorem addRoundKey_addRoundKey (st : Block) (ks : Schedule) (r : Fin 11) :
    addRoundKey (addRoundKey st ks r) ks r = st :=
  block_ext fun c k => by
    rw [roundKeyAdded_addRoundKey, roundKeyAdded_addRoundKey, BitVec.xor_assoc, BitVec.xor_self, BitVec.xor_zero]

/-- The bytes of the first four words of a schedule are those of its key (R154). -/
theorem byte_expandKey (sbox : Table) (rcon : RconTable) (key : Block) (c k : Fin 4) :
    byte k.val (expandKey sbox rcon key)[c.val] = key[4 * c.val + k.val] := by
  rw [getElem_expandKey_of_lt sbox rcon key c.isLt]
  obtain ⟨e0, e1, e2, e3⟩ :=
    byte_append key[4 * c.val] key[4 * c.val + 1] key[4 * c.val + 2] key[4 * c.val + 3]
  match k with
  | 0 => exact e0
  | 1 => exact e1
  | 2 => exact e2
  | 3 => exact e3

/-- Round key 0 of an expanded key is the key itself (R172). -/
theorem getElem_addRoundKey_zero (st key : Block) (sbox : Table) (rcon : RconTable) (j : Fin 16) :
    (addRoundKey st (expandKey sbox rcon key) 0)[j] = st[j] ^^^ key[j] := by
  obtain ⟨c, k, e⟩ := exists_column_row j
  simp only [Fin.getElem_fin, e, roundKeyAdded_addRoundKey st _ 0 c k, ← byte_expandKey sbox rcon key c k]
  simp

/-- An ARK word with a round above 10 or a nonzero zero field decodes to nothing (R92, R94). -/
theorem decode_ne_ok_of_bad_ark {w : Word} (hop : opcodeField w = 0x30#8)
    (hbad : 10 < (rndField w).toNat ∨ zeroFieldR w ≠ 0#20) (i : Instr) : decode w ≠ .ok i := by
  rw [Ne, decode_ok_iff_of_ark hop]
  rintro ⟨hzero, hrnd, -⟩
  obtain h | h := hbad
  · exact absurd hrnd (not_le.2 h)
  · exact h hzero

/-- Settles O28: ARK's outcomes by `KV`, with AddRoundKey as R171 writes it. -/
theorem arkAddsTheRoundKey : Obligations.ArkAddsTheRoundKey := by
  intro r s
  refine ⟨fun w hop hbad => runCommand_of_illegal (decode_ne_ok_of_bad_ark hop hbad) s,
    fun h => ⟨decode_encode (i := .ark r) (decide_eq_true h), exec_ark_of_not_kv h, fun hk => ?_⟩,
    fun key hk hks => ?_⟩
  · refine ⟨_, roundKeyAdded_addRoundKey _ _ _, next_setSt_succeed (exec_ark_of_kv h hk), ?_⟩
    refine next_setSt_st_succeed (addRoundKey_addRoundKey s.engine.st s.engine.ks ⟨r.toNat, Nat.lt_succ_of_le h⟩) ?_
    rw [runAll_cons (exec_ark_of_kv h hk), runAll_cons (exec_ark_of_kv h (by simpa using hk))]
    simp [runAll]
  · refine ⟨addRoundKey s.engine.st s.engine.ks 0, fun j => ?_, next_setSt_succeed (exec_ark_of_kv (by decide) hk)⟩
    rw [hks]
    exact getElem_addRoundKey_zero _ _ _ _ j

/-! ## InvShiftRows -/

/-- Each byte comes from its source position (R173). -/
theorem getElem_invShiftRows (st : Block) (k : Fin 16) : (invShiftRows st)[k] = st[shiftSource k] := by
  simp [invShiftRows]

/-- Row `r` of column `c + r` has row `r` of column `c` as its source. -/
theorem shiftSource_column_add_row : ∀ r c : Fin 4,
    shiftSource ⟨r.val + 4 * ((c.val + r.val) % 4), by omega⟩ = ⟨r.val + 4 * c.val, by omega⟩ := by
  decide

/-- Four steps back along the sources lead to the position itself. -/
theorem shiftSource_four : ∀ k : Fin 16, shiftSource (shiftSource (shiftSource (shiftSource k))) = k := by
  decide

/-- `inv_shift_rows` moves row `r` right by `r` columns (R173). -/
theorem rowsShifted_invShiftRows (st : Block) : RowsShifted st (invShiftRows st) := fun r c =>
  (getElem_invShiftRows st ⟨_, _⟩).trans (congrArg (st[·]) (shiftSource_column_add_row r c))

/-- Four row shifts give the State back (R174). -/
theorem invShiftRows_four (st : Block) : invShiftRows (invShiftRows (invShiftRows (invShiftRows st))) = st :=
  Vector.ext fun k hk => by
    calc (invShiftRows (invShiftRows (invShiftRows (invShiftRows st))))[(⟨k, hk⟩ : Fin 16)]
        = st[shiftSource (shiftSource (shiftSource (shiftSource ⟨k, hk⟩)))] := by simp only [getElem_invShiftRows]
      _ = st[(⟨k, hk⟩ : Fin 16)] := by simp only [shiftSource_four]

/-- Settles O29: every ISHR stores the shifted State, so four of them store the State they found. -/
theorem ishrShiftsTheRowsRight : Obligations.IshrShiftsTheRowsRight := by
  refine ⟨decode_encode (i := .ishr) rfl, fun s =>
    ⟨⟨_, rowsShifted_invShiftRows _, next_setSt_succeed (exec_ishr s)⟩, next_setSt_st_succeed (invShiftRows_four _) ?_⟩⟩
  simp only [runAll, exec_ishr, setSt_succeed_setSt_succeed, succeed_st, setSt_st]

/-! ## InvSubBytes -/

/-- `inv_sub_bytes` replaces every byte by its ISBOX entry (R175). -/
theorem bytesSubstituted_invSubBytes (isbox : Table) (st : Block) :
    BytesSubstituted isbox st (invSubBytes isbox st) := fun k => by
  simp [invSubBytes]

/-- Storing ST after the lazy build: the frame of ISUBB (R176). -/
theorem ensureSbox_setSt_succeed_frame (s : State) (b : Block) : (s.ensureSbox.setSt b).succeed =
    { s with engine := { s.engine with
        sbox := (s.ensureSbox.setSt b).succeed.engine.sbox, isbox := (s.ensureSbox.setSt b).succeed.engine.isbox,
        sv := true, st := (s.ensureSbox.setSt b).succeed.engine.st, err := .ok } } := by
  rw [ensureSbox_frame]
  rfl

/-- Settles O31: ISUBB ensures the tables and substitutes through the ISBOX they hold. -/
theorem isubbSubstitutesEveryByteThroughIsbox : Obligations.IsubbSubstitutesEveryByteThroughIsbox := by
  refine ⟨decode_encode (i := .isubb) rfl, fun s => ⟨_, exec_isubb s, ?_, ?_, ensureSbox_setSt_succeed_frame s _⟩⟩
  · simpa [EnsuredSbox] using ensuredSbox_ensureSbox s
  · simpa using bytesSubstituted_invSubBytes s.ensureSbox.engine.isbox s.engine.st

/-! ## InvMixColumns -/

/-- Entry `j` of matrix row `r`: the base row rotated right by `r` (R177). -/
def mdsEntry (r j : Fin 4) : Byte := mdsRow ((j.val + 4 - r.val) % 4)

/-- Row `r` of a mixed column is matrix row `r` times the old column (R177). -/
theorem getElem_invMixColumns (st : Block) (c r : Fin 4) : (invMixColumns st)[4 * c.val + r.val] =
    mixRow (mdsEntry r 0) (mdsEntry r 1) (mdsEntry r 2) (mdsEntry r 3)
      st[4 * c.val] st[4 * c.val + 1] st[4 * c.val + 2] st[4 * c.val + 3] := by
  have hmod : (4 * c.val + r.val) % 4 = r.val := by omega
  have hdiv : (4 * c.val + r.val) / 4 = c.val := by omega
  simp only [invMixColumns, Vector.getElem_ofFn, hmod, hdiv]
  match r with
  | 0 | 1 | 2 | 3 => rfl

/-- `inv_mix_columns` multiplies every column by the matrix, in the field (R177). -/
theorem columnsMixed_invMixColumns (st : Block) : ColumnsMixed st (invMixColumns st) := fun c r =>
  ⟨fun j => multiply (mdsEntry r j) st[4 * c.val + j.val], fun _ => isFieldProduct_multiply _ _,
    getElem_invMixColumns st c r⟩

/-- Every row of the matrix sums to 1. -/
theorem mdsEntry_sum : ∀ r : Fin 4, mdsEntry r 0 ^^^ mdsEntry r 1 ^^^ mdsEntry r 2 ^^^ mdsEntry r 3 = 1#8 := by
  decide

/-- A matrix row times a column of four equal bytes is its sum times the byte. -/
theorem mixRow_self (m0 m1 m2 m3 a : Byte) :
    mixRow m0 m1 m2 m3 a a a a = multiply (m0 ^^^ m1 ^^^ m2 ^^^ m3) a := by
  simp only [mixRow, multiply_xor_left]

/-- A column of four equal bytes keeps them (R177). -/
theorem getElem_invMixColumns_of_equal {st : Block} {c : Fin 4}
    (h : ∀ r : Fin 4, st[4 * c.val + r.val] = st[4 * c.val]) (r : Fin 4) :
    (invMixColumns st)[4 * c.val + r.val] = st[4 * c.val] := by
  have h1 : st[4 * c.val + 1] = st[4 * c.val] := h 1
  have h2 : st[4 * c.val + 2] = st[4 * c.val] := h 2
  have h3 : st[4 * c.val + 3] = st[4 * c.val] := h 3
  rw [getElem_invMixColumns, h1, h2, h3, mixRow_self, mdsEntry_sum, one_multiply]

/-- A State of sixteen equal bytes is unchanged (R178). -/
theorem invMixColumns_of_equal {st : Block} (h : ∀ k : Fin 16, st[k] = st[0]) : invMixColumns st = st :=
  block_ext fun c r => by
    have hall (r : Fin 4) : st[4 * c.val + r.val] = st[4 * c.val] :=
      (h ⟨4 * c.val + r.val, by omega⟩).trans (h ⟨4 * c.val, by omega⟩).symm
    rw [getElem_invMixColumns_of_equal hall, hall]

/-- Settles O32: IMIXC stores the mixed columns, and equal bytes are kept because every matrix row sums to 1. -/
theorem imixcMultipliesEveryColumn : Obligations.ImixcMultipliesEveryColumn := by
  refine ⟨decode_encode (i := .imixc) rfl, fun s =>
    ⟨⟨_, columnsMixed_invMixColumns _, fun _ => getElem_invMixColumns_of_equal, next_setSt_succeed (exec_imixc s)⟩,
      fun h => next_setSt_st_succeed (invMixColumns_of_equal h) (exec_imixc s)⟩⟩

/-! ## DECBLK -/

/-- The State after round `r` of a block's decryption, for `r` from 10 down to 1 (R179). -/
def afterRound (isbox : Table) (ks : Schedule) (a : Block) (r : Nat) : Block :=
  (middleRounds.take (10 - r)).foldl (middleRound isbox ks) (addRoundKey a ks 10)

/-- The rounds down to a middle round `r` are those down to `r + 1`, then `r`. -/
theorem take_middleRounds : ∀ r : Fin 11, 1 ≤ r.val → r.val ≤ 9 →
    middleRounds.take (10 - r.val) = middleRounds.take (10 - (r.val + 1)) ++ [r] := by
  decide

/-- Middle round `r` runs on what round `r + 1` left (R179). -/
theorem afterRound_middle (isbox : Table) (ks : Schedule) (a : Block) {r : Fin 11} (h1 : 1 ≤ r.val) (h9 : r.val ≤ 9) :
    afterRound isbox ks a r.val = middleRound isbox ks (afterRound isbox ks a (r.val + 1)) r := by
  rw [afterRound, take_middleRounds r h1 h9, List.foldl_append]
  rfl

/-- `decrypt_block` runs R179's rounds in order. -/
theorem decryptsTo_decryptBlock (isbox : Table) (ks : Schedule) (a : Block) :
    DecryptsTo isbox ks a (decryptBlock isbox ks a) := by
  refine ⟨afterRound isbox ks a, roundKeyAdded_addRoundKey a ks 10, fun r h1 h9 => ?_,
    _, _, rowsShifted_invShiftRows _, bytesSubstituted_invSubBytes _ _, roundKeyAdded_addRoundKey _ _ _⟩
  rw [afterRound_middle isbox ks a h1 h9]
  exact ⟨_, _, _, rowsShifted_invShiftRows _, bytesSubstituted_invSubBytes _ _, roundKeyAdded_addRoundKey _ _ _,
    columnsMixed_invMixColumns _⟩

/-- Settles O33: DECBLK's two outcomes by `KV`, with the decryption as R179 writes it. -/
theorem decblkDecryptsTheBlock : Obligations.DecblkDecryptsTheBlock := by
  refine ⟨decode_encode (i := .decblk) rfl, fun s => ?_⟩
  obtain ⟨hk, e⟩ | ⟨hk, e⟩ := execDecblk_cases s
  · exact ⟨fun h => absurd h (by simp [hk]), fun _ => ⟨_, decryptsTo_decryptBlock _ _ _, next_setSt_succeed e⟩⟩
  · exact ⟨fun _ => e, fun h => absurd h (by simp [hk])⟩

/-! ## The forty primitives -/

/-- The four commands that stand for middle round `r` (R181). -/
def middleRoundCommands (r : Fin 11) : List Instr := [.ishr, .isubb, .ark (BitVec.ofNat 4 r.val), .imixc]

/-- The forty commands, round by round (R181). -/
theorem primitives_eq_rounds :
    primitives = .ark 10 :: (middleRounds.flatMap middleRoundCommands ++ [.ishr, .isubb, .ark 0]) := by
  decide

section
variable {s : State} (hk : s.engine.kv = true) (hs : s.engine.sv = true)
include hk

/-- ARK with the number of a round adds that round's key. -/
theorem exec_ark_ofNat (r : Fin 11) : exec (.ark (BitVec.ofNat 4 r.val)) s =
    .next (s.setSt (addRoundKey s.engine.st s.engine.ks r)).succeed := by
  have hr : (BitVec.ofNat 4 r.val).toNat = r.val := Nat.mod_eq_of_lt (by omega)
  rw [exec_ark_of_kv (by omega) hk]
  simp only [hr]

include hs

/-- InvShiftRows, InvSubBytes and AddRoundKey as commands, which open every round after the first (R181). -/
theorem runAll_ishr_isubb_ark (b : Block) (r : Fin 11) (is : List Instr) :
    runAll (.ishr :: .isubb :: .ark (BitVec.ofNat 4 r.val) :: is) (s.setSt b).succeed =
      runAll is (s.setSt (addRoundKey (invSubBytes s.engine.isbox (invShiftRows b)) s.engine.ks r)).succeed := by
  rw [runAll_cons (exec_ishr _), runAll_cons (exec_isubb_of_sv (by simpa using hs)),
    runAll_cons (exec_ark_ofNat (by simpa using hk) r)]
  simp only [setSt_succeed_setSt_succeed, succeed_st, setSt_st, succeed_isbox, setSt_isbox, succeed_ks, setSt_ks]

/-- The four commands of a middle round (R181). -/
theorem runAll_middleRoundCommands (b : Block) (r : Fin 11) (is : List Instr) :
    runAll (middleRoundCommands r ++ is) (s.setSt b).succeed =
      runAll is (s.setSt (middleRound s.engine.isbox s.engine.ks b r)).succeed := by
  refine (runAll_ishr_isubb_ark hk hs b r (.imixc :: is)).trans ?_
  rw [runAll_cons (exec_imixc _)]
  simp only [setSt_succeed_setSt_succeed, succeed_st, setSt_st, middleRound]

/-- The commands of any middle rounds, one after the other. -/
theorem runAll_flatMap_middleRoundCommands (rounds : List (Fin 11)) (b : Block) (is : List Instr) :
    runAll (rounds.flatMap middleRoundCommands ++ is) (s.setSt b).succeed =
      runAll is (s.setSt (rounds.foldl (middleRound s.engine.isbox s.engine.ks) b)).succeed := by
  induction rounds generalizing b with
  | nil => rfl
  | cons r rounds ih =>
    rw [List.flatMap_cons, List.append_assoc, runAll_middleRoundCommands hk hs, ih, List.foldl_cons]

end

/-- Settles O34: each command of R181 stores the layer of R179 that it stands for, and later stores of ST replace
earlier ones. -/
theorem fortyPrimitivesEqualOneDecblk : Obligations.FortyPrimitivesEqualOneDecblk := by
  refine ⟨rfl, fun s hk hs => ⟨_, exec_decblk_of_kv hk, ?_⟩⟩
  rw [primitives_eq_rounds, runAll_cons (exec_ark_of_kv (by decide) hk), runAll_flatMap_middleRoundCommands hk hs]
  exact runAll_ishr_isubb_ark hk hs _ 0 []

end Sys2Proof.Machine
end

section
/-! PROOFS. ECBDEC (45_ecb_driver.md R203): what its validations accept, what it then leaves in every field, and that a
plaintext block is a function of its ciphertext block and the schedule alone (R205). -/

namespace Sys2Proof.Machine
open Ref

variable (s : State)

/-- What ECBDEC leaves when its three validations pass (R203). -/
def State.ecbDecrypted : State :=
  ((s.expandSchedule.ecbBlocks (s.engine.clen.toNat / 16)).setPlen s.engine.clen).succeed

/-- ECBDEC's outcome, by the three validations in priority order (R203). -/
theorem execEcbdec_of_validations :
    (s.engine.klen ≠ 16#32 → execEcbdec s = .next (s.fail .invalidKeySize)) ∧
    (s.engine.klen = 16#32 → s.engine.clen.toNat % 16 ≠ 0 → execEcbdec s = .next (s.fail .invalidBlockLength)) ∧
    (s.engine.klen = 16#32 → s.engine.clen.toNat % 16 = 0 → s.dcap < s.engine.clen.toNat →
      execEcbdec s = .next (s.fail .lengthOverCapacity)) ∧
    (s.engine.klen = 16#32 → s.engine.clen.toNat % 16 = 0 → s.engine.clen.toNat ≤ s.dcap →
      execEcbdec s = .next s.ecbDecrypted) := by
  obtain ⟨hk, e⟩ | ⟨hk, hm, e⟩ | ⟨hk, hm, hc, e⟩ | ⟨hk, hm, hc, e⟩ := execEcbdec_cases s
  · exact ⟨fun _ => e, fun h => absurd h hk, fun h => absurd h hk, fun h => absurd h hk⟩
  · exact ⟨fun h => absurd hk h, fun _ _ => e, fun _ h => absurd h hm, fun _ h => absurd h hm⟩
  · exact ⟨fun h => absurd hk h, fun _ h => absurd hm h, fun _ _ _ => e, fun _ _ h => absurd hc (not_lt.2 h)⟩
  · exact ⟨fun h => absurd hk h, fun _ h => absurd hm h, fun _ _ h => absurd hc (not_le.2 h), fun _ _ _ => e⟩

/-- An ECBDEC that succeeds found lengths that pass the validations, and decrypted (R203). -/
theorem of_execEcbdec_ok {s t : State} (h : execEcbdec s = .next t) (hok : t.engine.err = .ok) :
    s.engine.klen = 16#32 ∧ s.engine.clen.toNat % 16 = 0 ∧ s.engine.clen.toNat ≤ s.dcap ∧ t = s.ecbDecrypted := by
  obtain ⟨-, e⟩ | ⟨-, -, e⟩ | ⟨-, -, -, e⟩ | ⟨hk, hm, hc, e⟩ := execEcbdec_cases s <;>
    obtain rfl := Host.Outcome.next.inj (e.symm.trans h)
  case inr.inr.inr => exact ⟨hk, hm, hc, rfl⟩
  all_goals exact absurd hok (by simp)

/-! ## The fields that ECBDEC leaves -/

@[simp] theorem ecbDecrypted_sbox : s.ecbDecrypted.engine.sbox = s.ensureSbox.engine.sbox := by
  simp [State.ecbDecrypted]
@[simp] theorem ecbDecrypted_isbox : s.ecbDecrypted.engine.isbox = s.ensureSbox.engine.isbox := by
  simp [State.ecbDecrypted]
@[simp] theorem ecbDecrypted_sv : s.ecbDecrypted.engine.sv = true := by simp [State.ecbDecrypted]
@[simp] theorem ecbDecrypted_rcon : s.ecbDecrypted.engine.rcon = s.ensureRcon.engine.rcon := by
  simp [State.ecbDecrypted]
@[simp] theorem ecbDecrypted_rv : s.ecbDecrypted.engine.rv = true := by simp [State.ecbDecrypted]
@[simp] theorem ecbDecrypted_ks : s.ecbDecrypted.engine.ks =
    expandKey s.ensureSbox.engine.sbox s.ensureRcon.engine.rcon s.engine.key := by
  simp [State.ecbDecrypted, expandSchedule_spec]

/-- All that ECBDEC may change (R203, R204). -/
theorem ecbDecrypted_frame : s.ecbDecrypted =
    { s with engine := { s.engine with
        sbox := s.ecbDecrypted.engine.sbox, isbox := s.ecbDecrypted.engine.isbox, sv := true,
        rcon := s.ecbDecrypted.engine.rcon, rv := true, ks := s.ecbDecrypted.engine.ks, kv := true,
        st := s.ecbDecrypted.engine.st, pt := s.ecbDecrypted.engine.pt, plen := s.engine.clen, err := .ok } } := by
  unfold State.ecbDecrypted
  rw [ecbBlocks_frame, expandSchedule_spec]
  rfl

/-- The expansion changes no ciphertext. -/
theorem expandSchedule_ctBlock (k : Nat) : s.expandSchedule.ctBlock k = s.ctBlock k :=
  ctBlock_congr (by rw [expandSchedule_spec]) (by rw [expandSchedule_spec]) k

/-- What ECBDEC leaves in PT: below CLEN the decrypted blocks, from there on every byte as before (R202, R203). -/
theorem ptByte_ecbDecrypted (off : Nat) : s.ecbDecrypted.ptByte off =
    if off < 16 * (s.engine.clen.toNat / 16) then
      (decryptBlock s.ecbDecrypted.engine.isbox s.ecbDecrypted.engine.ks (s.ctBlock (off / 16)))[off % 16]
    else s.ptByte off := by
  calc s.ecbDecrypted.ptByte off
      = (s.expandSchedule.ecbBlocks (s.engine.clen.toNat / 16)).ptByte off := ptByte_congr rfl rfl off
    _ = _ := by
      rw [ptByte_ecbBlocks, expandSchedule_ctBlock, ptByte_congr (expandSchedule_pt s) (expandSchedule_resets s)]
      simp [State.ecbDecrypted]

/-- Block `k` of the plaintext is the decryption of block `k` of the ciphertext (R201, R202). -/
theorem ptByte_ecbDecrypted_block {k : Nat} (hk : k < s.engine.clen.toNat / 16) (j : Fin 16) :
    s.ecbDecrypted.ptByte (16 * k + j.val) =
      (decryptBlock s.ecbDecrypted.engine.isbox s.ecbDecrypted.engine.ks (s.ctBlock k))[j] := by
  have hdiv : (16 * k + j.val) / 16 = k := by omega
  have hmod : (16 * k + j.val) % 16 = j.val := by omega
  rw [ptByte_ecbDecrypted, if_pos (by omega)]
  simp only [hdiv, hmod, Fin.getElem_fin]

/-- With at least one block, ST is the decryption of the last one (R203). -/
theorem ecbDecrypted_st {n : Nat} (hn : s.engine.clen.toNat / 16 = n + 1) : s.ecbDecrypted.engine.st =
    decryptBlock s.ecbDecrypted.engine.isbox s.ecbDecrypted.engine.ks (s.ctBlock n) := by
  simp [State.ecbDecrypted, hn, ecbBlocks_st, expandSchedule_ctBlock]

/-- With at least one block, ST holds the last sixteen bytes of the plaintext (R203). -/
theorem ecbDecrypted_st_getElem (hm : s.engine.clen.toNat % 16 = 0) (hc : 16 ≤ s.engine.clen.toNat) (j : Fin 16) :
    s.ecbDecrypted.engine.st[j] = s.ecbDecrypted.ptByte (s.engine.clen.toNat - 16 + j.val) := by
  obtain ⟨n, hn⟩ := Nat.exists_eq_add_one_of_ne_zero (show s.engine.clen.toNat / 16 ≠ 0 by omega)
  have hlast : s.engine.clen.toNat - 16 = 16 * n := by omega
  rw [hlast, ptByte_ecbDecrypted_block s (by omega), ecbDecrypted_st s hn]

/-- With no block, ST and PT are as before (R207). -/
theorem ecbDecrypted_of_clen_zero (hc : s.engine.clen.toNat = 0) :
    s.ecbDecrypted.engine.st = s.engine.st ∧ s.ecbDecrypted.engine.pt = s.engine.pt := by
  simp [State.ecbDecrypted, hc]

/-- Settles O35: ECBDEC's outcomes by its three validations, with each block's decryption as R179 writes it. -/
theorem ecbdecDecryptsEveryBlockOrFails : Obligations.EcbdecDecryptsEveryBlockOrFails := by
  refine ⟨decode_encode (i := .ecbdec) rfl, fun s => ?_⟩
  obtain ⟨hkey, hlength, hcapacity, hvalid⟩ := execEcbdec_of_validations s
  refine ⟨hkey, hlength, hcapacity, fun hk hm hc => ⟨_, hvalid hk hm hc, ?_, ?_, ?_, fun k hlt => ?_,
    fun off hoff => ?_, ecbDecrypted_st_getElem s hm, ecbDecrypted_of_clen_zero s, ecbDecrypted_frame s⟩⟩
  · simpa [EnsuredSbox] using ensuredSbox_ensureSbox s
  · simpa [EnsuredRcon] using ensuredRcon_ensureRcon s
  · simpa using isSchedule_expandKey _ _ _
  · exact ⟨s.ctBlock k, _, fun j => by simp [State.ctBlock], decryptsTo_decryptBlock _ _ _,
      ptByte_ecbDecrypted_block s hlt⟩
  · rw [ptByte_ecbDecrypted, if_neg (by omega)]

/-! ## Two runs that differ in CT alone -/

/-- The same state with another ciphertext. -/
def State.withCt (ct : Memory) : State := { s with engine := { s.engine with ct := ct } }

/-- The lazy S-box build does not read CT (R133). -/
theorem ensureSbox_withCt (ct : Memory) : (s.withCt ct).ensureSbox = s.ensureSbox.withCt ct := by
  unfold State.ensureSbox
  exact (apply_ite (State.withCt · ct) (s.engine.sv = true) s s.buildSbox.setSv).symm

/-- The lazy RCON build does not read CT (R153). -/
theorem ensureRcon_withCt (ct : Memory) : (s.withCt ct).ensureRcon = s.ensureRcon.withCt ct := by
  unfold State.ensureRcon
  exact (apply_ite (State.withCt · ct) (s.engine.rv = true) s s.buildRcon.setRv).symm

/-- CT decides neither the table nor the schedule that ECBDEC decrypts with (R203). -/
theorem ecbDecrypted_isbox_ks_withCt (ct : Memory) :
    (s.withCt ct).ecbDecrypted.engine.isbox = s.ecbDecrypted.engine.isbox ∧
      (s.withCt ct).ecbDecrypted.engine.ks = s.ecbDecrypted.engine.ks := by
  simp only [ecbDecrypted_isbox, ecbDecrypted_ks, ensureSbox_withCt, ensureRcon_withCt]
  exact ⟨rfl, rfl⟩

/-- Settles O36: the first run's success is one of the second, and both decrypt equal blocks with one table and one
schedule. -/
theorem plaintextBlockDependsOnlyOnItsCiphertextBlock :
    Obligations.PlaintextBlockDependsOnlyOnItsCiphertextBlock := by
  intro s t u ct k l ht hu hok hk hl hblock j
  obtain ⟨hklen, hm, hc, rfl⟩ := of_execEcbdec_ok ht hok
  obtain ⟨-, -, -, hvalid⟩ := execEcbdec_of_validations (s.withCt ct)
  obtain rfl := Host.Outcome.next.inj ((hvalid hklen hm hc).symm.trans hu)
  have hsame : s.ctBlock k = (s.withCt ct).ctBlock l := congrArg Vector.ofFn (funext hblock)
  obtain ⟨hisbox, hks⟩ := ecbDecrypted_isbox_ks_withCt s ct
  rw [ptByte_ecbDecrypted_block s hk, ptByte_ecbDecrypted_block (s.withCt ct) hl, hisbox, hks, hsame]

end Sys2Proof.Machine
end

section
/-! PROOFS. Result codes (60_exceptions.md R220, R228, R237): the code that each command ends with, and that a command
that fails changes nothing but `ERR` (R229). -/

namespace Sys2Proof.Machine
open Ref

/-- Settles O38: each command that validates has its cases in R228's order, and no other command can fail. -/
theorem everyCommandEndsWithItsResultCode : Obligations.EveryCommandEndsWithItsResultCode := by
  intro i s hwf
  cases i with
  | keyexp => obtain ⟨hk, e⟩ | ⟨hk, e⟩ := execKeyexp_cases s <;> exact ⟨_, e, by simp [resultCode, hk]⟩
  | ark rnd =>
    have hrnd : rnd.toNat ≤ 10 := of_decide_eq_true hwf
    cases hkv : s.engine.kv with
    | false => exact ⟨_, exec_ark_of_not_kv hrnd hkv, by simp [resultCode, hkv]⟩
    | true => exact ⟨_, exec_ark_of_kv hrnd hkv, by simp [resultCode, hkv]⟩
  | decblk => obtain ⟨hkv, e⟩ | ⟨hkv, e⟩ := execDecblk_cases s <;> exact ⟨_, e, by simp [resultCode, hkv]⟩
  | ecbdec =>
    obtain ⟨hk, e⟩ | ⟨hk, hm, e⟩ | ⟨hk, hm, hc, e⟩ | ⟨hk, hm, hc, e⟩ := execEcbdec_cases s
    · exact ⟨_, e, by simp [resultCode, hk]⟩
    · exact ⟨_, e, by simp [resultCode, hk, hm]⟩
    · exact ⟨_, e, by simp [resultCode, hk, hm, hc]⟩
    · exact ⟨_, e, by simp [resultCode, hk, hm, hc]⟩
  | _ => exact ⟨_, rfl, rfl⟩

/-- Every way a command can end other than by a failure ends in `succeed` (R229). -/
theorem Effect.eq_fail_of_err_ne_ok {s t : State} {i : Instr} (h : Effect s i t) (herr : t.engine.err ≠ .ok) :
    t = s.fail t.engine.err := by
  cases h with
  | failed => rfl
  | _ => exact absurd rfl herr

/-- Settles O39: a word written to CMD runs a command or fails as illegal, and a failing command's effect is `fail`. -/
theorem failedCommandChangesErrOnly : Obligations.FailedCommandChangesErrOnly := by
  rintro s t (⟨i, h⟩ | ⟨w, h⟩) herr
  · exact (effect_of_exec h).eq_fail_of_err_ne_ok herr
  · obtain ⟨i, -, e⟩ | ⟨_, -, e⟩ := runCommand_cases w s
    · exact (effect_of_exec (e.symm.trans h)).eq_fail_of_err_ne_ok herr
    · obtain rfl := Host.Outcome.next.inj (e.symm.trans h)
      rfl

end Sys2Proof.Machine
end

section
/-! PROOFS. Reset (70_reset_and_hazards.md R250, R251): what a reset event keeps, what each command does as the first
one after reset, and what the gated regions then read as. -/

namespace Sys2Proof.Machine
open Ref

/-- Settles O13: a reset event is served as `afterReset`, whose buffers list nothing. -/
theorem resetIsAlwaysServedAndForgetsTheBuffers : Obligations.ResetIsAlwaysServedAndForgetsTheBuffers :=
  fun _ _ hp => ⟨_, step_cons hp, rfl, rfl, rfl, fun _ => ⟨rfl, rfl⟩⟩

/-! ## Commands that find nothing to change -/

/-- A command that stores in RES what it holds, while ERR is 0, leaves the state as it is. -/
theorem setRes_succeed_eq_self {s : State} {v : Word} (hv : v = s.engine.res) (he : s.engine.err = .ok) :
    (s.setRes v).succeed = s := by
  simp only [State.setRes, State.succeed, hv, ← he]

/-- A command that stores in ST what it holds, while ERR is 0, leaves the state as it is. -/
theorem setSt_succeed_eq_self {s : State} {b : Block} (hb : b = s.engine.st) (he : s.engine.err = .ok) :
    (s.setSt b).succeed = s := by
  simp only [State.setSt, State.succeed, hb, ← he]

/-- A State of sixteen equal bytes is unchanged by InvShiftRows: it only moves bytes (R173). -/
theorem invShiftRows_of_equal {st : Block} (h : ∀ k : Fin 16, st[k] = st[0]) : invShiftRows st = st :=
  Vector.ext fun k hk => by
    calc (invShiftRows st)[(⟨k, hk⟩ : Fin 16)]
        = st[shiftSource ⟨k, hk⟩] := getElem_invShiftRows st ⟨k, hk⟩
      _ = st[(⟨k, hk⟩ : Fin 16)] := (h _).trans (h _).symm

/-! ## The first substitutions -/

/-- Substituting the zero word gives four times the table's entry at 0. -/
theorem substituted_zero (t : Table) :
    substituted t 0#32 = lookup t 0#8 ++ lookup t 0#8 ++ lookup t 0#8 ++ lookup t 0#8 := rfl

/-- Every byte of ST after reset is zero (10_state.md R43). -/
theorem getElem_reset_st (k : Fin 16) : Engine.reset.st[k] = 0#8 := by
  simp [Engine.reset]

section
variable {s t : State} (he : s.engine = Engine.reset)
include he

/-- The tables ensured from the reset state are built, so they have R131's entries at 0. -/
theorem lookup_zero_of_ensuredSbox_reset (h : EnsuredSbox s t) :
    lookup t.engine.sbox 0#8 = 0x63#8 ∧ lookup t.engine.isbox 0#8 = 0x52#8 := by
  have hsv : s.engine.sv = false := by rw [he]; rfl
  obtain ⟨-, hbuilt, -⟩ := h
  obtain ⟨e00, -, -, -, e52⟩ := affine_inverse_printed
  exact ⟨((hbuilt hsv).lookup_sbox _).trans e00, (hbuilt hsv).lookup_isbox e52⟩

/-- SUBW right after reset (R136). -/
theorem exec_subw_reset : ∃ t, exec .subw s = .next t ∧ t.engine.sv = true ∧ t.engine.res = 0x63636363#32 ∧
    t.engine.err = .ok := by
  obtain ⟨t, ht, hen, hres, hframe⟩ := subwSubstitutesEachByteThroughSbox.2 s
  have hopa : s.engine.opa = 0#32 := by rw [he]; rfl
  refine ⟨t, ht, ensuredSbox_sv hen, ?_, by rw [hframe]⟩
  rw [hres, hopa, substituted_zero, (lookup_zero_of_ensuredSbox_reset he hen).1]
  rfl

/-- ISUBW right after reset (R137). -/
theorem exec_isubw_reset : ∃ t, exec .isubw s = .next t ∧ t.engine.sv = true ∧ t.engine.res = 0x52525252#32 ∧
    t.engine.err = .ok := by
  obtain ⟨t, ht, hen, hres, hframe⟩ := isubwSubstitutesEachByteThroughIsbox.2 s
  have hopa : s.engine.opa = 0#32 := by rw [he]; rfl
  refine ⟨t, ht, ensuredSbox_sv hen, ?_, by rw [hframe]⟩
  rw [hres, hopa, substituted_zero, (lookup_zero_of_ensuredSbox_reset he hen).2]
  rfl

/-- ISUBB right after reset (R176). -/
theorem exec_isubb_reset : ∃ t, exec .isubb s = .next t ∧ t.engine.sv = true ∧
    (∀ k : Fin 16, t.engine.st[k] = 0x52#8) ∧ t.engine.err = .ok := by
  obtain ⟨t, ht, hen, hst, hframe⟩ := isubbSubstitutesEveryByteThroughIsbox.2 s
  refine ⟨t, ht, ensuredSbox_sv hen, fun k => ?_, by rw [hframe]⟩
  rw [hst k, he, getElem_reset_st, (lookup_zero_of_ensuredSbox_reset he hen).2]

/-! ## Gated reads -/

/-- A gated region reads as zero after reset: no flag is set and PLEN is 0 (20_memory.md R65 (b)). -/
theorem readLocation_reset {r : Region} (hr : 4 ≤ r.id) (off : Nat) :
    readLocation s r off = .byte 0#8 ∨ readLocation s r off = .word 0#32 := by
  have hsv : s.engine.sv = false := by rw [he]; rfl
  have hrv : s.engine.rv = false := by rw [he]; rfl
  have hkv : s.engine.kv = false := by rw [he]; rfl
  have hplen : s.engine.plen.toNat = 0 := by rw [he]; rfl
  cases r with
  | pt => exact .inl (congrArg Value.byte (gatedByte_shut (by simp [hplen]) _))
  | sbox | isbox => exact .inl (congrArg Value.byte (gatedByte_shut hsv _))
  | rcon => exact .inr (congrArg Value.word (gatedWord_shut hrv _))
  | ks => exact .inr (congrArg Value.word (gatedWord_shut hkv _))
  | _ => exact absurd hr (by decide)

/-- Every allowed read of a gated region answers zero after reset. -/
theorem hostRead_reset {id off : Nat} {n : Width} (hid : 4 ≤ id)
    (hallowed : ¬IllFormed s.dcap (.transaction (.read id off n))) :
    ∃ v, hostRead s id off n = .ok v ∧ (v = .byte 0#8 ∨ v = .word 0#32) := by
  obtain ⟨v, hv⟩ := exists_hostRead_ok_iff.2 hallowed
  obtain ⟨r, hr, rfl⟩ := hostRead_ok_iff.1 hv
  obtain rfl := eq_id_of_checkAccess hr
  exact ⟨_, hv, readLocation_reset he hid off⟩

end

/-- Settles O14: ERR and the operands are zero and no flag is set, so GFMUL, GFINV, ISHR and IMIXC store what is there,
the builders build, and the commands that validate fail at their first test. -/
theorem commandsAfterResetActAsListed : Obligations.CommandsAfterResetActAsListed := by
  intro s he
  have herr : s.engine.err = .ok := by rw [he]; rfl
  have hkv : s.engine.kv = false := by rw [he]; rfl
  have hklen : s.engine.klen ≠ 16#32 := by rw [he]; decide
  have hst : ∀ k : Fin 16, s.engine.st[k] = s.engine.st[0] := by
    rw [he]; exact fun k => (getElem_reset_st k).trans (getElem_reset_st 0).symm
  have hmul : zext32 (multiply (lowByte s.engine.opa) (lowByte s.engine.opb)) = s.engine.res := by
    rw [he]; exact congrArg zext32 (zero_multiply _)
  have hinv : zext32 (inverse (lowByte s.engine.opa)) = s.engine.res := by
    rw [he]; exact congrArg zext32 inverse_zero
  exact ⟨congrArg Host.Outcome.next (setRes_succeed_eq_self hmul herr),
    congrArg Host.Outcome.next (setRes_succeed_eq_self hinv herr),
    congrArg Host.Outcome.next (setSt_succeed_eq_self (invShiftRows_of_equal hst) herr),
    congrArg Host.Outcome.next (setSt_succeed_eq_self (invMixColumns_of_equal hst) herr),
    ⟨_, rfl, rfl, rfl⟩, ⟨_, rfl, rfl, rfl⟩, exec_subw_reset he, exec_isubw_reset he, exec_isubb_reset he,
    fun _ hr => exec_ark_of_not_kv hr hkv, (decblkDecryptsTheBlock.2 s).1 hkv, (keyexpExpandsTheKey.2 s).1 hklen,
    (ecbdecDecryptsEveryBlockOrFails.2 s).1 hklen, fun _ _ _ => hostRead_reset he⟩

end Sys2Proof.Machine
end

section
/-! PROOFS. Hazards (70_reset_and_hazards.md R254, R258, R259): the old schedule after a write of the key, tables that
never change, and tables built before they are needed. -/

namespace Sys2Proof.Machine
open Ref

/-! ## Positions of the State -/

/-- InvShiftRows's source positions as a permutation: four steps along them lead back (R173). -/
def shiftSourcePerm : Equiv.Perm (Fin 16) where
  toFun := shiftSource
  invFun k := shiftSource (shiftSource (shiftSource k))
  left_inv := shiftSource_four
  right_inv := shiftSource_four

/-- A source position is in the same row. -/
theorem shiftSource_row : ∀ k : Fin 16, (shiftSource k).val % 4 = k.val % 4 := by decide

/-- Settles O30: the permutation is that of the source positions. -/
theorem shiftRowsIsAPermutationOfPositions : Obligations.ShiftRowsIsAPermutationOfPositions :=
  ⟨shiftSourcePerm, fun st k => ⟨getElem_invShiftRows st k, shiftSource_row k⟩⟩

/-! ## Writes to KEY and KLEN -/

/-- A served write other than to CMD has stored as R65 (d) says (O10). -/
theorem stores_of_step {s t : State} {rest : List HostEvent} {id off : Nat} {v : Value}
    (hp : s.pending = .transaction (.write id off v) :: rest) (hc : ¬(id = 0 ∧ off = 0x00)) (hs : step s = .next t) :
    ∃ u, Stores s id off v u ∧ t = u.answering rest .done := by
  have hallowed : ¬IllFormed s.dcap (.transaction (.write id off v)) := fun hbad => by
    obtain ⟨_, hf⟩ := (hostErrorExactlyWhenForbidden s _ _ hp).1 hbad
    cases hf.symm.trans hs
  obtain ⟨u, hu, hstep⟩ := writeStoresAndDoesNothingElse s rest id off v hp hallowed hc
  exact ⟨u, hu, Host.Outcome.next.inj (hs.symm.trans hstep)⟩

/-- A write to KEY or KLEN changes nothing else in the engine. -/
theorem key_klen_frame_of_stores {s u : State} {id off : Nat} {v : Value} (h : Stores s id off v u)
    (hloc : id = 1 ∨ (id = 0 ∧ off = 0x18)) :
    u.engine = { s.engine with klen := u.engine.klen, key := u.engine.key } := by
  cases h with
  | klen | key => rfl
  | _ => omega

/-- DECBLK reads KV, ISBOX, KS and ST alone (R180). -/
theorem decblk_congr {s t u w : State} (hkv : t.engine.kv = s.engine.kv) (hisbox : t.engine.isbox = s.engine.isbox)
    (hks : t.engine.ks = s.engine.ks) (hst : t.engine.st = s.engine.st)
    (hu : exec .decblk s = .next u) (hw : exec .decblk t = .next w) :
    w.engine.st = u.engine.st ∧ w.engine.err = u.engine.err := by
  cases hk : s.engine.kv with
  | false =>
    obtain rfl := Host.Outcome.next.inj (((decblkDecryptsTheBlock.2 s).1 hk).symm.trans hu)
    obtain rfl := Host.Outcome.next.inj (((decblkDecryptsTheBlock.2 t).1 (hkv.trans hk)).symm.trans hw)
    exact ⟨hst, rfl⟩
  | true =>
    obtain rfl := Host.Outcome.next.inj ((exec_decblk_of_kv hk).symm.trans hu)
    obtain rfl := Host.Outcome.next.inj ((exec_decblk_of_kv (hkv.trans hk)).symm.trans hw)
    simp only [succeed_st, succeed_err, setSt_st, hisbox, hks, hst, and_self]

/-- Settles O42: the write stores KEY or KLEN alone, a failing KEYEXP stores ERR alone, and an ECBDEC that succeeds
has expanded the KEY it found. -/
theorem keyWritesLeaveTheOldScheduleInUse : Obligations.KeyWritesLeaveTheOldScheduleInUse := by
  intro s t rest id off v hp hloc hs
  obtain ⟨u, hu, rfl⟩ := stores_of_step hp (by omega) hs
  have he := key_klen_frame_of_stores hu hloc
  have hks : u.engine.ks = s.engine.ks := by rw [he]
  have hkv : u.engine.kv = s.engine.kv := by rw [he]
  refine ⟨hks, hkv, fun _ _ => decblk_congr hkv (by rw [State.answering, he]) hks (by rw [State.answering, he]),
    fun w hw hk => ?_, fun w hw hok => ?_⟩
  · obtain rfl := Host.Outcome.next.inj (((keyexpExpandsTheKey.2 _).1 hk).symm.trans hw)
    exact ⟨hks, hkv⟩
  · obtain ⟨-, -, -, rfl⟩ := of_execEcbdec_ok hw hok
    simpa using isSchedule_expandKey _ _ _

/-! ## Tables that never change -/

/-- Settles O45: a step that is no reset clears no flag and keeps the invariant, and the invariant determines what the
flagged tables and constants are. -/
theorem validTablesNeverChangeUntilReset : Obligations.ValidTablesNeverChangeUntilReset := by
  intro s t h hs hreset
  have h' : StateInv t := stepKeepsTheInvariant s t h hs
  obtain ⟨hsv, hrv, -⟩ := (stepEffect_of_step hs).flags_mono hreset
  exact ⟨fun hf => (h'.tables (hsv hf)).unique (h.tables hf), fun hf => (h'.rcon (hrv hf)).unique (h.rcon hf)⟩

/-! ## Eager and lazy builds -/

/-- The same state with the given tables and constants stored and valid, and the given result code. -/
def State.withTables (s : State) (p : Table × Table) (r : RconTable) (c : ResultCode) : State :=
  { s with engine := { s.engine with sbox := p.1, isbox := p.2, sv := true, rcon := r, rv := true, err := c } }

section
variable (s : State) (p : Table × Table) (r : RconTable) (c : ResultCode)

/-- The stores of TBLGEN, one after the other. -/
theorem setTables_setRcon_eq_withTables :
    ((s.setTables p).setSv.succeed.setRcon r).setRv.succeed = s.withTables p r .ok := by
  rw [setRcon_setRv_succeed, setTables_setSv_succeed]
  rfl

/-- Tables that a command stores at its end are replaced by those given. -/
theorem setTables_succeed_withTables (q : Table × Table) :
    (s.setTables q).setSv.succeed.withTables p r .ok = (s.withTables p r c).setSv.succeed := rfl

/-- Constants that a command stores at its end are replaced by those given. -/
theorem setRcon_succeed_withTables (q : RconTable) :
    (s.setRcon q).setRv.succeed.withTables p r .ok = (s.withTables p r c).setRv.succeed := rfl

/-- A command that ends with a store to RES stores the same on the given tables. -/
theorem setRes_succeed_withTables (v : Word) :
    (s.setRes v).succeed.withTables p r .ok = ((s.withTables p r c).setRes v).succeed := rfl

/-- A command that ends with a store to ST stores the same on the given tables. -/
theorem setSt_succeed_withTables (b : Block) :
    (s.setSt b).succeed.withTables p r .ok = ((s.withTables p r c).setSt b).succeed := rfl

/-- What the lazy S-box build stores is replaced by the tables given. -/
theorem ensureSbox_withTables : s.ensureSbox.withTables p r c = s.withTables p r c := by
  rw [ensureSbox_frame]
  rfl

end

/-- TBLGEN stores the right tables and constants, with their flags, and ERR (30_encoding.md R98). -/
theorem runAll_tblgen (is : List Instr) (s : State) : ∃ p r, SboxTables p.1 p.2 ∧ RconValues r ∧
    runAll (Instr.tblgen ++ is) s = runAll is (s.withTables p r .ok) :=
  ⟨_, _, buildSboxTables_valid _, buildRcon_values _,
    calc runAll (.sbgen :: .rcgen :: is) s
        = runAll (.rcgen :: is) s.buildSbox.setSv.succeed := runAll_cons rfl _
      _ = runAll is (s.buildSbox.setSv.succeed).buildRcon.setRv.succeed := runAll_cons rfl _
      _ = runAll is (s.withTables _ _ .ok) := congrArg (runAll is) (setTables_setRcon_eq_withTables s _ _)⟩

section
variable {s : State} {p : Table × Table} {r : RconTable} (c : ResultCode)

/-- The expansion with tables stored is the expansion without, when they are the tables that its lazy builds leave. -/
theorem expandSchedule_withTables (hsbox : s.ensureSbox.engine.sbox = p.1) (hrcon : s.ensureRcon.engine.rcon = r) :
    (s.withTables p r c).expandSchedule = s.expandSchedule.withTables p r c := by
  show ((s.withTables p r c).setKs (expandKey p.1 r s.engine.key)).setKv = _
  rw [expandSchedule_spec, hsbox, hrcon]
  rfl

/-- Storing a block in PT commutes with storing tables. -/
theorem setPtBlock_withTables (k : Nat) (b : Block) :
    (s.withTables p r c).setPtBlock k b = (s.setPtBlock k b).withTables p r c :=
  List.foldl_hom (State.withTables · p r c) fun _ _ => rfl

/-- A pass of the block loop commutes with storing tables, when the stored ISBOX is the one that is there. -/
theorem ecbBlock_withTables (hisbox : s.engine.isbox = p.2) (k : Nat) :
    (s.withTables p r c).ecbBlock k = (s.ecbBlock k).withTables p r c := by
  unfold State.ecbBlock
  rw [hisbox]
  exact setPtBlock_withTables (s := s.setSt (decryptBlock p.2 s.engine.ks (s.ctBlock k))) c k _

/-- The block loop commutes with storing tables, when the stored ISBOX is the one that is there. -/
theorem ecbBlocks_withTables (hisbox : s.engine.isbox = p.2) (n : Nat) :
    (s.withTables p r c).ecbBlocks n = (s.ecbBlocks n).withTables p r c := by
  induction n with
  | zero => rfl
  | succ n ih =>
    rw [ecbBlocks_succ, ecbBlocks_succ, ih]
    exact ecbBlock_withTables c ((ecbBlocks_isbox s n).trans hisbox) n

/-- Where the right tables and constants are stored and valid beforehand, a command ends as it does alone but for
these (R258): what it would build, or finds valid, is what is stored. -/
theorem exec_withTables (h : StateInv s) (hp : SboxTables p.1 p.2) (hr : RconValues r) {i : Instr} {t : State}
    (hx : exec i s = .next t) : exec i (s.withTables p r c) = .next (t.withTables p r t.engine.err) := by
  obtain ⟨hsbox, hisbox⟩ := (h.ensureSbox.tables (ensureSbox_sv s)).unique hp
  have hrcon : s.ensureRcon.engine.rcon = r := (h.ensureRcon.rcon (ensureRcon_rv s)).unique hr
  have hexpand := expandSchedule_withTables c hsbox hrcon
  cases i with
  | gfmul | gfinv =>
    obtain rfl := Host.Outcome.next.inj hx
    exact congrArg Host.Outcome.next (setRes_succeed_withTables s p r c _).symm
  | sbgen =>
    obtain rfl := Host.Outcome.next.inj hx
    show Host.Outcome.next (s.withTables p r c).buildSbox.setSv.succeed = _
    rw [buildSbox_of_valid (s := s.withTables p r c) hp]
    exact congrArg Host.Outcome.next (setTables_succeed_withTables s p r c _).symm
  | subw =>
    obtain rfl := Host.Outcome.next.inj hx
    show Host.Outcome.next ((s.withTables p r c).setRes (subword p.1 s.engine.opa)).succeed = _
    rw [← hsbox, ← ensureSbox_opa, ← ensureSbox_withTables s p r c]
    exact congrArg Host.Outcome.next (setRes_succeed_withTables _ p r c _).symm
  | isubw =>
    obtain rfl := Host.Outcome.next.inj hx
    show Host.Outcome.next ((s.withTables p r c).setRes (subword p.2 s.engine.opa)).succeed = _
    rw [← hisbox, ← ensureSbox_opa, ← ensureSbox_withTables s p r c]
    exact congrArg Host.Outcome.next (setRes_succeed_withTables _ p r c _).symm
  | rcgen =>
    obtain rfl := Host.Outcome.next.inj hx
    show Host.Outcome.next ((s.withTables p r c).setRcon (buildRcon r)).setRv.succeed = _
    rw [(buildRcon_values r).unique hr]
    exact congrArg Host.Outcome.next (setRcon_succeed_withTables s p r c _).symm
  | keyexp =>
    obtain ⟨hk, e⟩ | ⟨hk, e⟩ := execKeyexp_cases s <;> obtain rfl := Host.Outcome.next.inj (e.symm.trans hx)
    · exact if_pos hk
    · refine (if_neg (not_not.2 hk)).trans ?_
      rw [hexpand]
      rfl
  | ark rnd =>
    obtain ⟨hrnd, e⟩ | ⟨hrnd, hk, e⟩ | ⟨hrnd, hk, e⟩ := execArk_cases s rnd <;>
      obtain rfl := Host.Outcome.next.inj (e.symm.trans hx)
    · exact dif_neg (not_le.2 hrnd)
    · exact exec_ark_of_kv (s := s.withTables p r c) hrnd hk
    · exact exec_ark_of_not_kv (s := s.withTables p r c) hrnd hk
  | ishr | imixc =>
    obtain rfl := Host.Outcome.next.inj hx
    exact congrArg Host.Outcome.next (setSt_succeed_withTables s p r c _).symm
  | isubb =>
    obtain rfl := Host.Outcome.next.inj hx
    show Host.Outcome.next ((s.withTables p r c).setSt (invSubBytes p.2 s.engine.st)).succeed = _
    rw [← hisbox, ← ensureSbox_st, ← ensureSbox_withTables s p r c]
    exact congrArg Host.Outcome.next (setSt_succeed_withTables _ p r c _).symm
  | decblk =>
    obtain ⟨hk, e⟩ | ⟨hk, e⟩ := execDecblk_cases s <;> obtain rfl := Host.Outcome.next.inj (e.symm.trans hx)
    · obtain ⟨hsv, -⟩ := h.schedule hk
      obtain ⟨-, hisbox⟩ := (h.tables hsv).unique hp
      rw [hisbox]
      exact exec_decblk_of_kv (s := s.withTables p r c) hk
    · exact (decblkDecryptsTheBlock.2 (s.withTables p r c)).1 hk
  | ecbdec =>
    obtain ⟨hkey, hlength, hcapacity, hvalid⟩ := execEcbdec_of_validations (s.withTables p r c)
    obtain ⟨hk, e⟩ | ⟨hk, hm, e⟩ | ⟨hk, hm, hc, e⟩ | ⟨hk, hm, hc, e⟩ := execEcbdec_cases s <;>
      obtain rfl := Host.Outcome.next.inj (e.symm.trans hx)
    · exact hkey hk
    · exact hlength hk hm
    · exact hcapacity hk hm hc
    · have hblocks := ecbBlocks_withTables (r := r) c ((expandSchedule_isbox s).trans hisbox)
        (s.engine.clen.toNat / 16)
      refine (hvalid hk hm hc).trans ?_
      show Host.Outcome.next
        (((s.withTables p r c).expandSchedule.ecbBlocks (s.engine.clen.toNat / 16)).setPlen s.engine.clen).succeed = _
      rw [hexpand, hblocks]
      rfl

end

/-- Settles O46: TBLGEN stores the right tables and constants, and where the command alone leaves its own valid, the
invariant says that they are the same. -/
theorem eagerAndLazyBuildsAgree : Obligations.EagerAndLazyBuildsAgree := by
  intro i s t h hx
  obtain ⟨p, r, hp, hr, hbuilt⟩ := runAll_tblgen [i] s
  have h' : StateInv t := h.exec hx
  refine ⟨t.withTables p r t.engine.err, ?_, rfl, rfl, rfl, fun hsv => hp.unique (h'.tables hsv),
    fun hrv => hr.unique (h'.rcon hrv)⟩
  rw [hbuilt, runAll_cons (exec_withTables .ok h hp hr hx)]
  rfl

end Sys2Proof.Machine
end
